-- ==== Sys2Proof/Word.lean ====
section
/-! DEFINITION. The two word types of the block: the byte the transport, the init table and the Pixel Buffer move (R6), and the 32-bit host register word (R6, R66). -/

namespace Sys2Proof

/-- One byte of the transport, the init table or the Pixel Buffer (R6). -/
abbrev Byte := BitVec 8

/-- One host register word (R66); also the converter's output word (R6). -/
abbrev Word := BitVec 32

end Sys2Proof
end

