-- ==== Sys2Proof/Syntax.lean ====
section
/-! DEFINITION. The block's instructions (00_scope.md R2), one constructor per row of spec/opcode_table.json, and the three encodings they have (30_encoding.md). -/

namespace Sys2Proof

/-- The direction of a host access: bit 40 of the key of R99 (1 is a write). -/
inductive Dir where
  | read
  | write
deriving DecidableEq, Repr, Inhabited

/-- The host bus pins of one cycle (R260): `wr` is `reg_wr`, `rd` is `reg_rd`, `addr` is `reg_addr[7:0]`,
`wdata` is `reg_wdata[31:0]`. `narrow` says that the access is narrower than 32 bits, which the interface does
not admit (R67); the block has no such pin (DESIGN CHOICE, log 13). -/
structure BusAccess where
  wr : Bool
  rd : Bool
  narrow : Bool
  addr : BitVec 8
  wdata : Word
deriving DecidableEq, Repr, Inhabited

/-- The instructions: one constructor per row of spec/opcode_table.json. A host write carries the word written,
its ignored bits too, so that no bit of a write's encoding is dropped. -/
inductive Instr where
  /-- TBL_SENTINEL (R132): the length byte 0. -/
  | tblSentinel
  /-- TBL_GROUP (R133): `[n][opc][args]`, n the number of arguments. -/
  | tblGroup (opc : Byte) (args : List Byte)
  /-- MALFORMED (R134): a truncated table; the length byte, where there is one. -/
  | malformed (n : Option Byte)
  /-- SWRESET (R161, R175). -/
  | swreset
  /-- SLPOUT (R167, R176). -/
  | slpout
  /-- DISPON (R169, R177). -/
  | dispon
  /-- RAMWR (R203, R178). -/
  | ramwr
  /-- PWCTR1 (R179): a latched frame with opcode 0xC0 and one argument. -/
  | pwctr1 (a0 : Byte)
  /-- PWCTR2 (R180): opcode 0xC1, one argument. -/
  | pwctr2 (a0 : Byte)
  /-- VMCTR1 (R181): opcode 0xC5, two arguments. -/
  | vmctr1 (a0 a1 : Byte)
  /-- VMCTR2 (R182): opcode 0xC7, one argument. -/
  | vmctr2 (a0 : Byte)
  /-- MADCTL (R183): opcode 0x36, one argument. -/
  | madctl (a0 : Byte)
  /-- VSCRSADD (R184): opcode 0x37, one argument. -/
  | vscrsadd (a0 : Byte)
  /-- PIXFMT (R185): opcode 0x3A, one argument. -/
  | pixfmt (a0 : Byte)
  /-- FRMCTR1 (R186): opcode 0xB1, two arguments. -/
  | frmctr1 (a0 a1 : Byte)
  /-- DFUNCTR (R187): opcode 0xB6, three arguments. -/
  | dfunctr (a0 a1 a2 : Byte)
  /-- TBL_CMD (R188): a latched frame with any other opcode or number of arguments. -/
  | tblCmd (opc : Byte) (args : List Byte)
  /-- CONVERT (R240). -/
  | convert (red green blue : Word)
  /-- START (R261): a write of CTRL with bit 0 set; bit 1 of the word asks for STOP in the same cycle (R263). -/
  | start (w : Word)
  /-- STOP (R262): a write of CTRL with bit 1 set and bit 0 clear. -/
  | stop (w : Word)
  /-- CTRL_NOP (R263): a write of CTRL with bits 1:0 clear. -/
  | ctrlNop (w : Word)
  /-- READ_CTRL (R264). -/
  | readCtrl
  /-- READ_STATUS (R265). -/
  | readStatus
  /-- WRITE_STATUS (R266). -/
  | writeStatus (w : Word)
  /-- WRITE_PACING (R267). -/
  | writePacing (w : Word)
  /-- READ_PACING (R268). -/
  | readPacing
  /-- PALWR (R241). -/
  | palwr (w : Word)
  /-- READ_PALWR (R264). -/
  | readPalwr
  /-- READ_PAL (R242), `i` the palette index. -/
  | readPal (i : Fin 16)
  /-- WRITE_PAL (R266). -/
  | writePal (i : Fin 16) (w : Word)
  /-- RESERVED_HI (R269): offsets 0x80 to 0xFC. -/
  | reservedHi (dir : Dir) (off : BitVec 8) (w : Word)
  /-- RESERVED_LO (R269): offsets 0x10 to 0x3C. -/
  | reservedLo (dir : Dir) (off : BitVec 8) (w : Word)
  /-- REFUSED_ACCESS (R67, R260): an access the interface does not admit. -/
  | refusedAccess (a : BusAccess)
deriving DecidableEq, Repr

/-- The places an instruction is read from (30_encoding.md). -/
inductive Code where
  /-- The init-table bytes from `CURSOR` to the end of the table (R90). -/
  | table (bytes : List Byte)
  /-- A latched frame, opcode and arguments (R27, R152). -/
  | frame (opc : Byte) (args : List Byte)
  /-- One of the four fixed command bytes (R95, R96). -/
  | command (b : Byte)
  /-- The host bus pins of one cycle (R99, R260). -/
  | bus (a : BusAccess)
  /-- The converter's inputs (R240). -/
  | rgb (red green blue : Word)
deriving DecidableEq, Repr

/-- Why a code is no instruction. -/
inductive Reject where
  /-- A command byte that is none of the four fixed ones (R95). -/
  | noFixedCommand (b : Byte)
  /-- A frame without arguments or with more than 255: the table format has none (R27, 90_conflicts.md C2). -/
  | noFrame (n : Nat)
  /-- A cycle without a host access (R260). -/
  | noAccess
deriving DecidableEq, Repr

end Sys2Proof
end

