-- ==== Sys2Proof/Config.lean ====
section
/-! DEFINITION. What an implementation fixes (the parameters of 00_scope.md R5), what the environment drives in one cycle (R41), and the free values: opaque constants of which nothing can be proved but their type. -/

namespace Sys2Proof

/-- What the environment drives in one cycle (R41). The Pixel Buffer byte `fb_data` is no field: it is the buffer's
content at `fb_addr` (R61), and what changes in a cycle is the writer's stores. -/
structure Pins where
  /-- Synchronous block reset (R320). -/
  rst : Bool
  /-- The signal line and the buffer are available (R261). -/
  resOk : Bool
  /-- The transport accepts the offered byte (R151). -/
  txReady : Bool
  /-- The transport answers the transaction (R151). -/
  rspValid : Bool
  /-- The answer is a TransportError (R101). -/
  rspErr : Bool
  /-- The host bus (R260). -/
  bus : BusAccess
  /-- The pixel-buffer writer's byte stores that are part of the buffer's content from this cycle on, oldest first
  (R71; log 7). -/
  stores : List (Nat × Byte)
deriving DecidableEq, Repr, Inhabited

/-- The parameters of R5. They are no state of the block: no step changes them. -/
structure Params where
  /-- `WIDTH`, in pixels. -/
  width : Nat
  /-- `HEIGHT`, in pixels. -/
  height : Nat
  /-- `BPP`, bytes per pixel. -/
  bpp : Nat
  /-- `SETTLE_MS`. -/
  settleMs : BitVec 16
  /-- `PACING_RESET_MS`. -/
  pacingResetMs : BitVec 16
  /-- `CYCLES_PER_MS`, at least 1. -/
  cyclesPerMs : Nat
  /-- `INIT_TABLE`; `TABLE_LEN` is its length. -/
  initTable : List Byte
  /-- `PAL_ENTRIES`, pseudo-palette entries. -/
  palEntries : Nat
  /-- `OPC_SWRESET`. -/
  opcSwreset : Byte
  /-- `OPC_SLPOUT`. -/
  opcSlpout : Byte
  /-- `OPC_DISPON`. -/
  opcDispon : Byte
  /-- `OPC_RAMWR`. -/
  opcRamwr : Byte
  /-- `REG_BASE`: where the platform puts the register map; nothing in the block depends on it (U12). -/
  regBase : Nat
deriving DecidableEq, Repr

/-- `FB_BYTES = WIDTH * HEIGHT * BPP` (R5). -/
def Params.fbBytes (p : Params) : Nat := p.width * p.height * p.bpp

/-- `FB_AW = ceil(log2(FB_BYTES))`, the width of `fb_addr` (R5). -/
def Params.fbAw (p : Params) : Nat := Nat.clog 2 p.fbBytes

/-- The width of `TX_IDX`: wide enough for `FB_BYTES - 1` (R6) and for the last of 255 arguments, so 18 in the reference
configuration (R25; DESIGN CHOICE for other geometries, log 10). -/
def Params.txIdxWidth (p : Params) : Nat := max p.fbAw 8

/-- `TABLE_LEN` (R5). -/
def Params.tableLen (p : Params) : Nat := p.initTable.length

/-- The ranges of the parameters: a table of at most 65535 bytes and at least one cycle a millisecond (R5), and a Pixel
Buffer that is not empty, since no transaction has length 0 (R10, R152; log 10). -/
def Params.wf (p : Params) : Bool :=
  decide (p.initTable.length ≤ 65535) && decide (1 ≤ p.cyclesPerMs) && decide (1 ≤ p.fbBytes)

/-- `PACING_RESET_MS`, OPEN (R5, U11): any 16-bit value (log 4). -/
opaque Config.pacingResetMs : BitVec 16

/-- `CYCLES_PER_MS` less one; `CYCLES_PER_MS` is OPEN, an integer of at least 1 (R5, U10; log 4). -/
opaque Config.cyclesPerMsLessOne : Nat

/-- `REG_BASE`, OPEN (R5, U12; log 4). -/
opaque Config.regBase : Nat

/-- FREE VALUE: what the environment drives in a cycle that `State.inputs` says nothing about (R41, U4; log 2). -/
opaque Config.freePins : Nat → Pins

/-- FREE VALUE: the Pixel Buffer byte at an offset that the writer has not stored to (R323, U3; log 6). -/
opaque Config.fbPowerOn : Nat → Byte

/-- The reference init table (R97). Its opcode bytes are general knowledge, not in the source (PRESUMED, log 5). -/
def Config.referenceTable : List Byte :=
  [0x01, 0xC0, 0x23] ++ [0x01, 0xC1, 0x10] ++ [0x02, 0xC5, 0x3E, 0x28] ++ [0x01, 0xC7, 0x86] ++
  [0x01, 0x36, 0x40] ++ [0x01, 0x37, 0x00] ++ [0x01, 0x3A, 0x66] ++ [0x02, 0xB1, 0x00, 0x18] ++
  [0x03, 0xB6, 0x08, 0x82, 0x27] ++ [0x00]

/-- The reference configuration (R5), the OPEN parameters left open. The four opcode bytes are general knowledge,
not in the source (PRESUMED, log 5). -/
def Params.reference : Params where
  width := 240
  height := 320
  bpp := 3
  settleMs := 150
  pacingResetMs := Config.pacingResetMs
  cyclesPerMs := Config.cyclesPerMsLessOne + 1
  initTable := Config.referenceTable
  palEntries := 16
  opcSwreset := 0x01
  opcSlpout := 0x11
  opcDispon := 0x29
  opcRamwr := 0x2C
  regBase := Config.regBase

end Sys2Proof
end

