-- ==== Sys2Proof/WellFormed.lean ====
section
/-! DEFINITION. Which instructions the encodings of 30_encoding.md can hold: the checks on operands that the types do not make. -/

namespace Sys2Proof

/-- The table commands that have a name: opcode byte and number of arguments (R96, R97). The bytes are
general knowledge, not in the source (PRESUMED, log 5); they only choose a frame's name. -/
def namedForms : List (Byte × Nat) :=
  [(0xC0, 1), (0xC1, 1), (0xC5, 2), (0xC7, 1), (0x36, 1), (0x37, 1), (0x3A, 1), (0xB1, 2), (0xB6, 3)]

/-- The offset is a whole number of words (R66). -/
def aligned (off : BitVec 8) : Bool := off.toNat % 4 == 0

/-- The access is one the interface admits: one direction, a whole aligned word (R66, R67, R260). -/
def BusAccess.admitted (a : BusAccess) : Bool :=
  (a.wr != a.rd) && !a.narrow && aligned a.addr

/-- Something is driven on the bus in this cycle (R260). -/
def BusAccess.present (a : BusAccess) : Bool := a.wr || a.rd

/-- The offset lies in the reserved range 0x10 to 0x3C (R40). -/
def inReservedLo (off : BitVec 8) : Bool := decide (0x10 ≤ off.toNat) && decide (off.toNat < 0x40)

/-- The offset lies in the reserved range 0x80 to 0xFC (R40). -/
def inReservedHi (off : BitVec 8) : Bool := decide (0x80 ≤ off.toNat)

/-- A frame has 1 to 255 arguments (R27, R90). -/
def frameLength (n : Nat) : Bool := decide (1 ≤ n) && decide (n ≤ 255)

/-- The instruction is one that its encoding can hold. -/
def Instr.wellFormed : Instr → Bool
  | .tblSentinel => true
  | .tblGroup _ args => frameLength args.length
  | .malformed n => n != some 0
  | .swreset => true
  | .slpout => true
  | .dispon => true
  | .ramwr => true
  | .pwctr1 _ => true
  | .pwctr2 _ => true
  | .vmctr1 _ _ => true
  | .vmctr2 _ => true
  | .madctl _ => true
  | .vscrsadd _ => true
  | .pixfmt _ => true
  | .frmctr1 _ _ => true
  | .dfunctr _ _ _ => true
  | .tblCmd opc args => frameLength args.length && !namedForms.contains (opc, args.length)
  | .convert _ _ _ => true
  | .start w => w.getLsbD 0
  | .stop w => !w.getLsbD 0 && w.getLsbD 1
  | .ctrlNop w => !w.getLsbD 0 && !w.getLsbD 1
  | .readCtrl => true
  | .readStatus => true
  | .writeStatus _ => true
  | .writePacing _ => true
  | .readPacing => true
  | .palwr _ => true
  | .readPalwr => true
  | .readPal _ => true
  | .writePal _ _ => true
  | .reservedHi _ off _ => aligned off && inReservedHi off
  | .reservedLo _ off _ => aligned off && inReservedLo off
  | .refusedAccess a => a.present && !a.admitted

end Sys2Proof
end

