-- ==== Sys2Proof/Decode.lean ====
section
/-! DEFINITION. The decoder of the three encodings of 30_encoding.md (total: an instruction, or a rejection by name), the encoder after it, and the reading of one word of spec/opcode_table.json. -/

namespace Sys2Proof

/-- `Decode` of R130 on the init-table bytes from `CURSOR` to the table's end: no byte left is Malformed, a length
byte 0 is the sentinel, a group that overruns is Malformed, else a group. -/
def decodeGroup : List Byte → Instr
  | [] => .malformed none
  | n :: rest =>
    if n = 0 then .tblSentinel
    else match rest with
      | [] => .malformed (some n)
      | opc :: tail =>
        if n.toNat ≤ tail.length then .tblGroup opc (tail.take n.toNat) else .malformed (some n)

/-- The table command that a latched frame is (R179 to R188): a named one, or TBL_CMD. -/
def decodeFrame (opc : Byte) (args : List Byte) : Instr :=
  match args with
  | [a0] =>
    if opc = 0xC0 then .pwctr1 a0
    else if opc = 0xC1 then .pwctr2 a0
    else if opc = 0xC7 then .vmctr2 a0
    else if opc = 0x36 then .madctl a0
    else if opc = 0x37 then .vscrsadd a0
    else if opc = 0x3A then .pixfmt a0
    else .tblCmd opc [a0]
  | [a0, a1] =>
    if opc = 0xC5 then .vmctr1 a0 a1
    else if opc = 0xB1 then .frmctr1 a0 a1
    else .tblCmd opc [a0, a1]
  | [a0, a1, a2] =>
    if opc = 0xB6 then .dfunctr a0 a1 a2 else .tblCmd opc [a0, a1, a2]
  | other => .tblCmd opc other

/-- The fixed command a byte is, by the default bytes of R96. In the block a fixed command is chosen by the
sequencer state, never by its byte. -/
def decodeCommand (b : Byte) : Option Instr :=
  if b = 0x01 then some .swreset
  else if b = 0x11 then some .slpout
  else if b = 0x29 then some .dispon
  else if b = 0x2C then some .ramwr
  else none

/-- The palette index of a register offset: `(offset - 0x40) / 4` (R242). -/
def palIndex (off : BitVec 8) : Fin 16 := ⟨(off.toNat - 0x40) / 4 % 16, Nat.mod_lt _ (by decide)⟩

/-- The register offset of palette entry `i`: `0x40 + 4*i` (R39). -/
def palOffset (i : Fin 16) : BitVec 8 := BitVec.ofNat 8 (0x40 + 4 * i.val)

/-- The write of CTRL that the word asks for (R99): START wins the name where both bits are set (log 14). -/
def decodeCtrl (w : Word) : Instr :=
  if w.getLsbD 0 then .start w else if w.getLsbD 1 then .stop w else .ctrlNop w

/-- The host operation at an aligned offset (R99). -/
def decodeAccess (dir : Dir) (off : BitVec 8) (w : Word) : Instr :=
  if inReservedHi off then .reservedHi dir off w
  else if inReservedLo off then .reservedLo dir off w
  else match dir with
    | .write =>
      if off = 0x00 then decodeCtrl w
      else if off = 0x04 then .writeStatus w
      else if off = 0x08 then .writePacing w
      else if off = 0x0C then .palwr w
      else .writePal (palIndex off) w
    | .read =>
      if off = 0x00 then .readCtrl
      else if off = 0x04 then .readStatus
      else if off = 0x08 then .readPacing
      else if off = 0x0C then .readPalwr
      else .readPal (palIndex off)

/-- The direction of an access that has one direction (R260). -/
def BusAccess.dir (a : BusAccess) : Dir := if a.wr then .write else .read

/-- The host operation on the bus (R99, R67, R260). -/
def decodeBus (a : BusAccess) : Except Reject Instr :=
  if a.present then
    if a.admitted then .ok (decodeAccess a.dir a.addr a.wdata) else .ok (.refusedAccess a)
  else .error .noAccess

/-- The decoder: total, rejecting by name. -/
def decode : Code → Except Reject Instr
  | .table bytes => .ok (decodeGroup bytes)
  | .frame opc args =>
    if frameLength args.length then .ok (decodeFrame opc args) else .error (.noFrame args.length)
  | .command b =>
    match decodeCommand b with
    | some i => .ok i
    | none => .error (.noFixedCommand b)
  | .bus a => decodeBus a
  | .rgb r g b => .ok (.convert r g b)

/-- The access that a host operation with this direction, offset and data is (R99). -/
def busCode (dir : Dir) (off : BitVec 8) (w : Word) : Code :=
  .bus { wr := dir = .write, rd := dir = .read, narrow := false, addr := off, wdata := w }

/-- The encoder, from the encoding tables of 30_encoding.md. -/
def encode : Instr → Code
  | .tblSentinel => .table [0]
  | .tblGroup opc args => .table (BitVec.ofNat 8 args.length :: opc :: args)
  | .malformed none => .table []
  | .malformed (some n) => .table [n]
  | .swreset => .command 0x01
  | .slpout => .command 0x11
  | .dispon => .command 0x29
  | .ramwr => .command 0x2C
  | .pwctr1 a0 => .frame 0xC0 [a0]
  | .pwctr2 a0 => .frame 0xC1 [a0]
  | .vmctr1 a0 a1 => .frame 0xC5 [a0, a1]
  | .vmctr2 a0 => .frame 0xC7 [a0]
  | .madctl a0 => .frame 0x36 [a0]
  | .vscrsadd a0 => .frame 0x37 [a0]
  | .pixfmt a0 => .frame 0x3A [a0]
  | .frmctr1 a0 a1 => .frame 0xB1 [a0, a1]
  | .dfunctr a0 a1 a2 => .frame 0xB6 [a0, a1, a2]
  | .tblCmd opc args => .frame opc args
  | .convert r g b => .rgb r g b
  | .start w => busCode .write 0x00 w
  | .stop w => busCode .write 0x00 w
  | .ctrlNop w => busCode .write 0x00 w
  | .readCtrl => busCode .read 0x00 0
  | .readStatus => busCode .read 0x04 0
  | .writeStatus w => busCode .write 0x04 w
  | .writePacing w => busCode .write 0x08 w
  | .readPacing => busCode .read 0x08 0
  | .palwr w => busCode .write 0x0C w
  | .readPalwr => busCode .read 0x0C 0
  | .readPal i => busCode .read (palOffset i) 0
  | .writePal i w => busCode .write (palOffset i) w
  | .reservedHi dir off w => busCode dir off w
  | .reservedLo dir off w => busCode dir off w
  | .refusedAccess a => .bus a

/-- The access of a 41-bit key `{dir, offset, wdata}` (R99). -/
def BusAccess.ofKey (w : Nat) : BusAccess where
  wr := w / 2 ^ 40 % 2 == 1
  rd := w / 2 ^ 40 % 2 == 0
  narrow := false
  addr := BitVec.ofNat 8 (w / 2 ^ 32)
  wdata := BitVec.ofNat 32 w

/-- The 41-bit key of an admitted access (R99). -/
def BusAccess.toKey (a : BusAccess) : Nat :=
  (if a.wr then 2 ^ 40 else 0) + a.addr.toNat * 2 ^ 32 + a.wdata.toNat

/-- The `k` bytes of `w`, its most significant byte first: opcode_table.json numbers a table group's bits so that the
length byte stands in the uppermost eight (log 16). -/
def bytesOfWord (k w : Nat) : List Byte :=
  match k with
  | 0 => []
  | k + 1 => BitVec.ofNat 8 (w / 256 ^ k) :: bytesOfWord k w

/-- A table group's bytes, the arguments that the word does not hold filled with zeros. -/
def groupFill (bytes : List Byte) : List Byte :=
  match bytes with
  | n :: rest => n :: (rest ++ List.replicate (n.toNat + 1 - rest.length) 0)
  | [] => []

/-- Where a word of opcode_table.json is read from (log 16): up to 8 bits, a fixed command byte, else a length byte;
16 bits, a group's first two bytes; 24 to 40 bits, a latched frame where the first byte counts the arguments; the
rest, a host key. -/
def codeOfTableWord (nbits w : Nat) : Code :=
  if nbits = 0 then .table []
  else if nbits ≤ 8 then
    match decodeCommand (BitVec.ofNat 8 w) with
    | some _ => .command (BitVec.ofNat 8 w)
    | none => .table [BitVec.ofNat 8 w]
  else if nbits ≤ 16 then .table (groupFill (bytesOfWord 2 w))
  else if nbits ≤ 32 ∨ (nbits ≤ 40 ∧ w / 2 ^ 24 = 0x03B6) then
    match groupFill (bytesOfWord ((nbits + 7) / 8) w) with
    | n :: opc :: args => if n = 0 then .table [n] else .frame opc (args.take n.toNat)
    | short => .table short
  else .bus (BusAccess.ofKey w)

/-- The instruction the decoder reads from a word of opcode_table.json. -/
def decodeTableWord (nbits w : Nat) : Option Instr :=
  match decode (codeOfTableWord nbits w) with
  | .ok i => some i
  | .error _ => none

end Sys2Proof
end

