-- ==== Sys2Proof/Machine/State.lean ====
section
/-! DEFINITION. The state of one block instance (10_state.md), plain data; why a step can stop; the state right after block reset (R321). -/

namespace Sys2Proof.Machine

/-- The mode-select values (R10): on the `dc` output COMMAND is 0 and DATA is 1. -/
inductive Mode where
  | command
  | data
deriving DecidableEq, Repr, Inhabited

/-- The sequencer states, in the order of their encodings 0 to 16 (R21). -/
inductive Seq where
  | idle
  | rstTx
  | rstWait
  | tblDecode
  | tblOpcTx
  | tblArgTx
  | slpTx
  | slpWait
  | donTx
  | donWait
  | rlTop
  | rlPace
  | rlCmdTx
  | rlPixTx
  | stopped
  | initFailed
  | rlFailed
deriving DecidableEq, Repr, Inhabited

/-- The transaction sub-states (R24). -/
inductive Txs where
  | setup
  | stream
  | wait
deriving DecidableEq, Repr, Inhabited

/-- The error codes of `ERR` (R31, R290), in the order of their encodings 0 to 3. -/
inductive Err where
  | none
  | transport
  | malformedTable
  | resource
deriving DecidableEq, Repr, Inhabited

/-- The result of a transaction (R150). -/
inductive TxResult where
  | ok
  | err
deriving DecidableEq, Repr, Inhabited

/-- One completed `Send`, an entry of the transaction log (R150). -/
structure Transaction where
  mode : Mode
  bytes : List Byte
  result : TxResult
deriving DecidableEq, Repr, Inhabited

/-- The Pixel Buffer's stored bytes: offsets strictly rising, one entry for each offset the writer has stored to.
An unlisted offset holds no stored byte (log 6). -/
abbrev Memory := List Host.Cell

/-- Why the machine stops with a fault. Each is safe: the model stops where no run from reset comes, or where the
environment does what the spec gives it no means to do. -/
inductive Fault where
  /-- Raised by `writerMove`: a store of the pixel-buffer writer at an offset at or above `FB_BYTES`, which the
  buffer does not have (R60). Safe (log 7). -/
  | storeOutsideBuffer
  /-- Raised by the fetch of a latched frame whose arguments do not lie in the table: no rule reads the table there
  (R62), and no run reaches such a state. Safe (log 11). -/
  | tableReadOutside
  /-- Raised by a transaction whose byte index has run past its length: no run reaches such a state (R25, R204).
  Safe (log 11). -/
  | txIndexOutside
deriving DecidableEq, Repr

/-- Why an instruction has no meaning. -/
inductive Refusal where
  /-- Raised by an arm of exec that has no meaning yet. Safe. -/
  | notModelled (mnemonic : String)
  /-- Raised by REFUSED_ACCESS: a narrow, misaligned or read-plus-write access, which a model must refuse
  (R67, R260, U8). Safe (log 13). -/
  | accessNotAdmitted
deriving DecidableEq, Repr

/-- One instance of the block (R45): its registers, its constant parameters, the Pixel Buffer it reads, and the
model's own observations and inputs. -/
structure State where
  /-- The parameters of R5, `INIT_TABLE` among them; no step changes them (R7, R77). -/
  par : Params
  /-- `SEQ` (R21). -/
  seq : Seq
  /-- `TXS` (R24). -/
  txs : Txs
  /-- `TX_IDX` (R25); its width depends on a parameter (log 10). -/
  txIdx : Nat
  /-- `CURSOR` (R26). -/
  cursor : BitVec 16
  /-- `FRM_OPC` (R27). -/
  frmOpc : Byte
  /-- `FRM_LEN` (R27). -/
  frmLen : BitVec 8
  /-- `FRM_BASE` (R27). -/
  frmBase : BitVec 16
  /-- `PEND_ERR` (R28). -/
  pendErr : Bool
  /-- `MS_LEFT` (R29). -/
  msLeft : BitVec 16
  /-- `PRE` (R29); its width depends on a parameter (log 9). -/
  pre : Nat
  /-- `DC` (R30). -/
  dc : Mode
  /-- `ERR` (R31). -/
  err : Err
  /-- `CANCEL_REQ` (R32). -/
  cancelReq : Bool
  /-- `PACING_MS` (R33). -/
  pacingMs : BitVec 16
  /-- `PAL`, `PAL_ENTRIES` registers (R34); as many as a parameter says (R5; log 23). -/
  pal : List Word
  /-- The Pixel Buffer (R60, R71). -/
  fb : Memory
  /-- Observation: `reg_rdata` of the last cycle (R42, R260). -/
  rdata : Word
  /-- Observation: the converter's output word (R6, R240). -/
  convOut : Word
  /-- Observation: the bytes handed over in the transaction in progress (R151). -/
  sent : List Byte
  /-- Observation: the transaction log (R150). -/
  log : List Transaction
  /-- What the environment drives in this cycle and the coming ones (R41). -/
  inputs : List Pins
  /-- The number of this cycle. -/
  cycle : Nat
deriving DecidableEq, Repr

/-- The outcome of a step or of an instruction. -/
abbrev Result := Host.Outcome State Fault Refusal

/-- The state after block reset of an instance with the parameters `p` (R321), nothing yet observed and no input
given. -/
def State.resetWith (p : Params) : State where
  par := p
  seq := .idle
  txs := .setup
  txIdx := 0
  cursor := 0
  frmOpc := 0
  frmLen := 0
  frmBase := 0
  pendErr := false
  msLeft := 0
  pre := 0
  dc := .command
  err := .none
  cancelReq := false
  pacingMs := p.pacingResetMs
  pal := List.replicate p.palEntries 0
  fb := []
  rdata := 0
  convOut := 0
  sent := []
  log := []
  inputs := []
  cycle := 0

/-- The machine right after block reset, in the reference configuration (R5, R321). -/
def State.reset : State := State.resetWith Params.reference

end Sys2Proof.Machine
end

