-- ==== Sys2Proof/Machine/Operands.lean ====
section
/-! DEFINITION. Operand forms: the fields of a written word (R35, R37, R38), the converter (R240), table and buffer bytes (R62, R64), and the transaction each transmitting state performs (R152). -/

namespace Sys2Proof.Machine

/-- CTRL.STOP, bit 1 of a CTRL write (R35). -/
def ctrlStop (w : Word) : Bool := w.getLsbD 1

/-- PACING.MS, bits 15:0 (R37). -/
def pacingField (w : Word) : BitVec 16 := w.extractLsb' 0 16

/-- PALWR.IDX, bits 31:24 (R38). -/
def palwrIdx (w : Word) : BitVec 8 := w.extractLsb' 24 8

/-- PALWR.R, bits 23:16 (R38), zero-extended (R241). -/
def palwrRed (w : Word) : Word := (w.extractLsb' 16 8).setWidth 32

/-- PALWR.G, bits 15:8 (R38), zero-extended (R241). -/
def palwrGreen (w : Word) : Word := (w.extractLsb' 8 8).setWidth 32

/-- PALWR.B, bits 7:0 (R38), zero-extended (R241). -/
def palwrBlue (w : Word) : Word := (w.extractLsb' 0 8).setWidth 32

/-- The packing function of CONVERT (R240). -/
def convert (red green blue : Word) : Word :=
  ((red &&& 0x3F) <<< 18) ||| ((green &&& 0x3F) <<< 10) ||| ((blue &&& 0x3F) <<< 2)

/-- The colour that a PALWR word asks for (R241). -/
def palwrColor (w : Word) : Word := convert (palwrRed w) (palwrGreen w) (palwrBlue w)

/-- Palette entry `i` (R242); a register offset that no entry stands behind reads 0, as a reserved one (R40; log 23). -/
def State.palEntry (s : State) (i : Nat) : Word := s.pal[i]?.getD 0

/-- `TableRead` (R62), nothing outside the table. -/
def State.tableRead (s : State) (i : Nat) : Option Byte := s.par.initTable[i]?

/-- The `n` table bytes from offset `c`, where the table has them all. -/
def State.tableSlice (s : State) (c n : Nat) : Option (List Byte) :=
  if c + n ≤ s.par.initTable.length then some ((s.par.initTable.drop c).take n) else none

/-- The byte stored at an offset of the Pixel Buffer, if one has been. -/
def Memory.read? : Memory → Nat → Option Byte
  | [], _ => none
  | (a, b) :: rest, x => if a = x then some b else Memory.read? rest x

/-- Store one byte, keeping the offsets strictly rising. -/
def Memory.write : Memory → Nat → Byte → Memory
  | [], x, v => [(x, v)]
  | (a, b) :: rest, x, v =>
    if x < a then (x, v) :: (a, b) :: rest
    else if x = a then (x, v) :: rest
    else (a, b) :: Memory.write rest x v

/-- The writer's stores of one cycle, oldest first. -/
def Memory.writeAll : Memory → List (Nat × Byte) → Memory
  | m, [] => m
  | m, (x, v) :: rest => Memory.writeAll (Memory.write m x v) rest

/-- The first listed offset, if any, is above `x`. -/
def Memory.above (x : Nat) : Memory → Bool
  | [] => true
  | (a, _) :: _ => decide (x < a)

/-- The canonical form: offsets strictly rising. An unlisted offset holds no stored byte, so no entry equals what an
unlisted offset reads as. -/
def Memory.wf : Memory → Bool
  | [] => true
  | (a, _) :: rest => Memory.above a rest && Memory.wf rest

/-- Every listed offset is below `n`. -/
def Memory.below (n : Nat) (m : Memory) : Bool := m.all (fun c => decide (c.1 < n))

/-- `FbRead` (R64): the byte last stored at the offset; before the first store, a free value (R323, U3). -/
def State.fbRead (s : State) (a : Nat) : Byte := (Memory.read? s.fb a).getD (Config.fbPowerOn a)

/-- What the environment drives in this cycle (R41): the head of the inputs, or a free value where they end (U4). -/
def State.pins (s : State) : Pins :=
  match s.inputs with
  | p :: _ => p
  | [] => Config.freePins s.cycle

/-- `mode(S)` of R152, for the transmitting states. -/
def txMode : Seq → Option Mode
  | .rstTx => some .command
  | .tblOpcTx => some .command
  | .tblArgTx => some .data
  | .slpTx => some .command
  | .donTx => some .command
  | .rlCmdTx => some .command
  | .rlPixTx => some .data
  | .idle => none
  | .rstWait => none
  | .tblDecode => none
  | .slpWait => none
  | .donWait => none
  | .rlTop => none
  | .rlPace => none
  | .stopped => none
  | .initFailed => none
  | .rlFailed => none

/-- `len(S)` of R152; 0 where `SEQ` is no transmitting state. -/
def State.txLen (s : State) : Nat :=
  match s.seq with
  | .tblArgTx => s.frmLen.toNat
  | .rlPixTx => s.par.fbBytes
  | q => if (txMode q).isSome then 1 else 0

/-- `byte(S, i)` of R152, for `i` below `len(S)`. -/
def State.txByte (s : State) (i : Nat) : Option Byte :=
  if i < s.txLen then
    match s.seq with
    | .rstTx => some s.par.opcSwreset
    | .tblOpcTx => some s.frmOpc
    | .tblArgTx => s.tableRead (s.frmBase.toNat + i)
    | .slpTx => some s.par.opcSlpout
    | .donTx => some s.par.opcDispon
    | .rlCmdTx => some s.par.opcRamwr
    | .rlPixTx => some (s.fbRead i)
    | _ => none
  else none

end Sys2Proof.Machine
end

