-- ==== Sys2Proof/Machine/Flags.lean ====
section
/-! DEFINITION. The encodings and status words computed from the state: SEQ, TXS, DC and ERR codes, PHASE (R23), STATUS (R36), PACING (R37), and the outputs of R42. -/

namespace Sys2Proof.Machine

/-- The 5-bit encoding of `SEQ` (R21). -/
def Seq.code : Seq → BitVec 5
  | .idle => 0
  | .rstTx => 1
  | .rstWait => 2
  | .tblDecode => 3
  | .tblOpcTx => 4
  | .tblArgTx => 5
  | .slpTx => 6
  | .slpWait => 7
  | .donTx => 8
  | .donWait => 9
  | .rlTop => 10
  | .rlPace => 11
  | .rlCmdTx => 12
  | .rlPixTx => 13
  | .stopped => 14
  | .initFailed => 15
  | .rlFailed => 16

/-- The 2-bit encoding of `TXS` (R24). -/
def Txs.code : Txs → BitVec 2
  | .setup => 0
  | .stream => 1
  | .wait => 2

/-- The level of the `dc` output (R10, R30). -/
def Mode.code : Mode → BitVec 1
  | .command => 0
  | .data => 1

/-- The 4-bit code of `ERR` (R31, R290). -/
def Err.code : Err → BitVec 4
  | .none => 0
  | .transport => 1
  | .malformedTable => 2
  | .resource => 3

/-- PHASE (R23). -/
def Seq.phase : Seq → BitVec 4
  | .idle => 0
  | .rstTx => 1
  | .rstWait => 1
  | .tblDecode => 2
  | .tblOpcTx => 2
  | .tblArgTx => 2
  | .slpTx => 3
  | .slpWait => 3
  | .donTx => 3
  | .donWait => 3
  | .rlTop => 4
  | .rlPace => 4
  | .rlCmdTx => 4
  | .rlPixTx => 4
  | .stopped => 5
  | .initFailed => 6
  | .rlFailed => 7

/-- The terminal states (R293). -/
def Seq.terminal : Seq → Bool
  | .stopped => true
  | .initFailed => true
  | .rlFailed => true
  | _ => false

/-- The states of bring-up, `S_IDLE` and `S_RST_TX` to `S_DON_WAIT`, whose errors end in `S_INIT_FAILED` (R292). -/
def Seq.bringUp (q : Seq) : Bool := decide (q.code.toNat ≤ 9)

/-- The states of the four delays (R210). -/
def Seq.waiting : Seq → Bool
  | .rstWait => true
  | .slpWait => true
  | .donWait => true
  | .rlPace => true
  | _ => false

/-- The STATUS word (R36, R265). -/
def State.statusWord (s : State) : Word :=
  ((if s.cancelReq then 1 else 0) <<< 8) ||| ((s.err.code.setWidth 32) <<< 4) ||| s.seq.phase.setWidth 32

/-- The PACING word (R37, R268). -/
def State.pacingWord (s : State) : Word := s.pacingMs.setWidth 32

/-- The outputs to the transport (R42, R151). -/
structure TxPort where
  valid : Bool
  data : Byte
  last : Bool
deriving DecidableEq, Repr

/-- `tx_valid`, `tx_data`, `tx_last` (R151): idle outside TX_STREAM of a transmitting state. -/
def State.txPort (s : State) : TxPort :=
  if s.txs = .stream then
    match s.txByte s.txIdx with
    | some b => { valid := true, data := b, last := s.txIdx + 1 = s.txLen }
    | none => { valid := false, data := 0, last := false }
  else { valid := false, data := 0, last := false }

/-- `fb_addr` (R61), `FB_AW` bits wide (R5). -/
def State.fbAddr (s : State) : BitVec s.par.fbAw :=
  if s.seq = .rlPixTx ∧ s.txs = .stream then BitVec.ofNat s.par.fbAw s.txIdx else 0

/-- The address of a register in the host's address space (R5, R69): only the offset concerns the block. -/
def State.hostAddress (s : State) (off : BitVec 8) : Nat := s.par.regBase + off.toNat

end Sys2Proof.Machine
end

