-- ==== Sys2Proof/Machine/Ops.lean ====
section
/-! DEFINITION. The shared operations: transitions of the sequencer, raising an error (R292), one cycle of a transaction (R151), one cycle of a delay (R211), block reset (R320), answering the host, the clock. -/

namespace Sys2Proof.Machine

/-- Go on with the next state; a fault or a refusal ends the step. -/
def andThen (o : Result) (k : State → Result) : Result :=
  match o with
  | .next s => k s
  | .fault f => .fault f
  | .refused r => .refused r

/-- `goto` a state that transmits nothing (R9): TXS and TX_IDX are held (R24). -/
def goTo (q : Seq) (s : State) : State := { s with seq := q }

/-- `goto` a transmitting state: every such transition sets TXS to TX_SETUP and TX_IDX to 0 (R24, R25). -/
def goTx (q : Seq) (s : State) : State := { s with seq := q, txs := .setup, txIdx := 0 }

/-- `goto` a wait state with a delay of `n` ms (R210). -/
def goWait (q : Seq) (n : BitVec 16) (s : State) : State := { s with seq := q, msLeft := n, pre := 0 }

/-- Raising an error (R292): the code into ERR, a terminal state; nothing else changes. There is no handler, and no
return from it (R297): only `blockReset` leaves a terminal state (R293). -/
def raise (e : Err) (s : State) : State :=
  { s with err := e, seq := if s.seq.bringUp then .initFailed else .rlFailed }

/-- The response of the transport in this cycle (R101, R151). -/
def State.response (s : State) : TxResult := if s.pins.rspErr then .err else .ok

/-- The transaction has completed: one entry for the log (R150). -/
def complete (r : TxResult) (s : State) : State :=
  { s with log := s.log ++ [{ mode := s.dc, bytes := s.sent, result := r }], sent := [] }

/-- One cycle of the transaction unit (R151): `mode` and `byteAt` below `len` are the transaction of R152, `onOk` and
`onErr` the successors that the state's rule gives. `byteAt i` is none where the transaction has no byte `i`. -/
def sendCycle (mode : Mode) (len : Nat) (byteAt : Nat → Option Byte) (onOk onErr : State → State) (s : State) : Result :=
  match s.txs with
  | .setup => .next { s with dc := mode, txs := .stream, txIdx := 0, sent := [] }
  | .stream =>
    match byteAt s.txIdx with
    | none => .fault .txIndexOutside
    | some b =>
      if s.pins.txReady then
        if s.txIdx + 1 = len then .next { s with txs := .wait, sent := s.sent ++ [b] }
        else .next { s with txIdx := s.txIdx + 1, sent := s.sent ++ [b] }
      else .next s
  | .wait =>
    if s.pins.rspValid then
      match s.response with
      | .ok => .next (onOk (complete .ok s))
      | .err => .next (onErr (complete .err s))
    else .next s

/-- One cycle of a transaction of a list of bytes. -/
def sendList (mode : Mode) (bytes : List Byte) (onOk onErr : State → State) (s : State) : Result :=
  sendCycle mode bytes.length (fun i => bytes[i]?) onOk onErr s

/-- One cycle of a COMMAND transaction: always one byte (R10, R95). -/
def sendCommand (b : Byte) (onOk onErr : State → State) (s : State) : Result :=
  sendList .command [b] onOk onErr s

/-- One cycle of a delay (R211), `onEnd` the successor. -/
def waitCycle (onEnd : State → State) (s : State) : State :=
  if s.msLeft = 0 then onEnd s
  else if s.pre + 1 = s.par.cyclesPerMs then { s with pre := 0, msLeft := s.msLeft - 1 }
  else { s with pre := s.pre + 1 }

/-- Answer a host read: `reg_rdata` of this cycle (R260). -/
def respond (w : Word) (s : State) : State := { s with rdata := w }

/-- Drive the converter (R240). -/
def driveConvert (red green blue : Word) (s : State) : State := { s with convOut := convert red green blue }

/-- Write a palette entry (R241, R9 `MemWrite`). -/
def writePalette (i : Nat) (w : Word) (s : State) : State := { s with pal := s.pal.set i w }

/-- Block reset (R320, R321): every state element takes its reset value. The parameters and so the init table, the Pixel
Buffer (R323), the log of completed transactions, what the host reads in this cycle (U9) and the inputs stay. -/
def blockReset (s : State) : State :=
  { State.resetWith s.par with
    fb := s.fb, log := s.log, rdata := s.rdata, inputs := s.inputs, cycle := s.cycle }

/-- The clock's move (R7): this cycle's inputs are used up. -/
def clockTick (s : State) : State := { s with inputs := s.inputs.tail, cycle := s.cycle + 1 }

end Sys2Proof.Machine
end

