-- ==== Sys2Proof/Machine/Color.lean ====
section
/-! DEFINITION. The color-format converter and the pseudo-palette (43_color_converter.md). -/

namespace Sys2Proof.Machine

/-- CONVERT (R240): the packed word on the converter's output; no register is written. -/
def execConvert (red green blue : Word) (s : State) : Result := .next (driveConvert red green blue s)

/-- PALWR (R241): an index of `PAL_ENTRIES` or more is ignored. -/
def execPalwr (w : Word) (s : State) : Result :=
  if (palwrIdx w).toNat < s.par.palEntries then
    .next (writePalette (palwrIdx w).toNat (palwrColor w)
      (driveConvert (palwrRed w) (palwrGreen w) (palwrBlue w) s))
  else .next s

/-- READ_PAL (R242). -/
def execReadPal (i : Fin 16) (s : State) : Result := .next (respond (s.palEntry i) s)

/-- WRITE_PAL (R266): ignored. -/
def execWritePal (_i : Fin 16) (_w : Word) (s : State) : Result := .next s

end Sys2Proof.Machine
end

