-- ==== Sys2Proof/Machine/Commands.lean ====
section
/-! DEFINITION. The four fixed panel commands (41_protocol_engine.md, 42_refresh_loop.md): one cycle of each one's transaction. -/

namespace Sys2Proof.Machine

/-- The settle delay after SWRESET, its failure noted for the delay's end (R161). -/
def afterSwreset (failed : Bool) (s : State) : State :=
  goWait .rstWait s.par.settleMs { s with pendErr := failed }

/-- SWRESET (R161): one cycle of `S_RST_TX`; the delay is taken for ok and for err. -/
def execSwreset (s : State) : Result :=
  sendCommand s.par.opcSwreset (afterSwreset false) (afterSwreset true) s

/-- SLPOUT (R167): one cycle of `S_SLP_TX`. -/
def execSlpout (s : State) : Result :=
  sendCommand s.par.opcSlpout (goWait .slpWait s.par.settleMs) (raise .transport) s

/-- DISPON (R169): one cycle of `S_DON_TX`. -/
def execDispon (s : State) : Result :=
  sendCommand s.par.opcDispon (goWait .donWait s.par.settleMs) (raise .transport) s

/-- RAMWR (R203): one cycle of `S_RL_CMD_TX`. -/
def execRamwr (s : State) : Result :=
  sendCommand s.par.opcRamwr (goTx .rlPixTx) (raise .transport) s

end Sys2Proof.Machine
end

