-- ==== Sys2Proof/Machine/Frames.lean ====
section
/-! DEFINITION. The table commands (R179 to R188): one cycle of a frame's opcode transaction (R165) or of its argument transaction (R166). -/

namespace Sys2Proof.Machine

/-- What follows a frame's opcode (R165). The else branch carries "(if any)" of the source; the table format makes it
unreachable (90_conflicts.md C2). -/
def afterOpcode (s : State) : State :=
  if 1 ≤ s.frmLen.toNat then goTx .tblArgTx s else goTo .tblDecode s

/-- One cycle of a table command: its opcode as COMMAND in `S_TBL_OPC_TX` (R165), its arguments as DATA in
`S_TBL_ARG_TX` (R166). -/
def frameCycle (opc : Byte) (args : List Byte) (s : State) : Result :=
  if s.seq = .tblArgTx then sendList .data args (goTo .tblDecode) (raise .transport) s
  else sendCommand opc afterOpcode (raise .transport) s

/-- PWCTR1 (R179). -/
def execPwctr1 (a0 : Byte) (s : State) : Result := frameCycle 0xC0 [a0] s

/-- PWCTR2 (R180). -/
def execPwctr2 (a0 : Byte) (s : State) : Result := frameCycle 0xC1 [a0] s

/-- VMCTR1 (R181): both arguments in one transaction. -/
def execVmctr1 (a0 a1 : Byte) (s : State) : Result := frameCycle 0xC5 [a0, a1] s

/-- VMCTR2 (R182). -/
def execVmctr2 (a0 : Byte) (s : State) : Result := frameCycle 0xC7 [a0] s

/-- MADCTL (R183). -/
def execMadctl (a0 : Byte) (s : State) : Result := frameCycle 0x36 [a0] s

/-- VSCRSADD (R184): an argument byte 0x00 is ordinary data. -/
def execVscrsadd (a0 : Byte) (s : State) : Result := frameCycle 0x37 [a0] s

/-- PIXFMT (R185). -/
def execPixfmt (a0 : Byte) (s : State) : Result := frameCycle 0x3A [a0] s

/-- FRMCTR1 (R186). -/
def execFrmctr1 (a0 a1 : Byte) (s : State) : Result := frameCycle 0xB1 [a0, a1] s

/-- DFUNCTR (R187). -/
def execDfunctr (a0 a1 a2 : Byte) (s : State) : Result := frameCycle 0xB6 [a0, a1, a2] s

/-- TBL_CMD (R188): any other table command, by the same two transactions. -/
def execTblCmd (opc : Byte) (args : List Byte) (s : State) : Result := frameCycle opc args s

end Sys2Proof.Machine
end

