-- ==== Sys2Proof/Machine/HostOps.lean ====
section
/-! DEFINITION. The host operations on CTRL, STATUS, PACING and the reserved offsets (44_host_interface.md). -/

namespace Sys2Proof.Machine

/-- START's own effect (R261): acted on only in `S_IDLE`, `res_ok` sampled in this cycle. -/
def startBringUp (s : State) : State :=
  if s.seq = .idle then
    if s.pins.resOk then goTx .rstTx { s with pendErr := false } else raise .resource s
  else s

/-- STOP's own effect (R262). -/
def requestCancel (s : State) : State := { s with cancelReq := true }

/-- START (R261); with bit 1 of the word set, STOP in the same cycle (R263). -/
def execStart (w : Word) (s : State) : Result :=
  .next (if ctrlStop w then requestCancel (startBringUp s) else startBringUp s)

/-- STOP (R262), in every state. -/
def execStop (_w : Word) (s : State) : Result := .next (requestCancel s)

/-- CTRL_NOP (R263): no effect. -/
def execCtrlNop (_w : Word) (s : State) : Result := .next s

/-- READ_CTRL (R264): 0. -/
def execReadCtrl (s : State) : Result := .next (respond 0 s)

/-- READ_STATUS (R265). -/
def execReadStatus (s : State) : Result := .next (respond s.statusWord s)

/-- WRITE_STATUS (R266): ignored. -/
def execWriteStatus (_w : Word) (s : State) : Result := .next s

/-- WRITE_PACING (R267): bits 31:16 are ignored. -/
def execWritePacing (w : Word) (s : State) : Result := .next { s with pacingMs := pacingField w }

/-- READ_PACING (R268). -/
def execReadPacing (s : State) : Result := .next (respond s.pacingWord s)

/-- READ_PALWR (R264): 0. -/
def execReadPalwr (s : State) : Result := .next (respond 0 s)

/-- A reserved access (R269): a read returns 0, a write has no effect. -/
def reservedAccess (dir : Dir) (s : State) : State :=
  match dir with
  | .read => respond 0 s
  | .write => s

/-- RESERVED_HI (R269). -/
def execReservedHi (dir : Dir) (_off : BitVec 8) (_w : Word) (s : State) : Result := .next (reservedAccess dir s)

/-- RESERVED_LO (R269). -/
def execReservedLo (dir : Dir) (_off : BitVec 8) (_w : Word) (s : State) : Result := .next (reservedAccess dir s)

/-- REFUSED_ACCESS (R67, R260): no meaning. -/
def execRefusedAccess (_a : BusAccess) (_s : State) : Result := .refused .accessNotAdmitted

end Sys2Proof.Machine
end

