-- ==== Sys2Proof/Machine/Table.lean ====
section
/-! DEFINITION. The three outcomes of a decode step of the command decoder (40_codec.md). -/

namespace Sys2Proof.Machine

/-- TBL_SENTINEL (R132): the power sequence follows; CURSOR is unchanged. -/
def execTblSentinel (s : State) : Result := .next (goTx .slpTx s)

/-- TBL_GROUP (R133): latch the frame, advance CURSOR by n + 2, transmit the opcode. -/
def execTblGroup (opc : Byte) (args : List Byte) (s : State) : Result :=
  .next (goTx .tblOpcTx
    { s with
      frmLen := BitVec.ofNat 8 args.length
      frmOpc := opc
      frmBase := s.cursor + 2
      cursor := s.cursor + BitVec.ofNat 16 (args.length + 2) })

/-- MALFORMED (R134): raise MalformedTable. The length byte has no effect. -/
def execMalformed (_n : Option Byte) (s : State) : Result := .next (raise .malformedTable s)

end Sys2Proof.Machine
end

