-- ==== Sys2Proof/Machine/Dispatch.lean ====
section
/-! DEFINITION. The dispatch: one arm per constructor of Instr, one direct call of its meaning. -/

namespace Sys2Proof.Machine

def exec (i : Instr) (s : State) : Host.Outcome State Fault Refusal :=
  match i with
  | .tblSentinel => Sys2Proof.Machine.execTblSentinel s
  | .tblGroup opc args => Sys2Proof.Machine.execTblGroup opc args s
  | .malformed n => Sys2Proof.Machine.execMalformed n s
  | .swreset => Sys2Proof.Machine.execSwreset s
  | .slpout => Sys2Proof.Machine.execSlpout s
  | .dispon => Sys2Proof.Machine.execDispon s
  | .ramwr => Sys2Proof.Machine.execRamwr s
  | .pwctr1 a0 => Sys2Proof.Machine.execPwctr1 a0 s
  | .pwctr2 a0 => Sys2Proof.Machine.execPwctr2 a0 s
  | .vmctr1 a0 a1 => Sys2Proof.Machine.execVmctr1 a0 a1 s
  | .vmctr2 a0 => Sys2Proof.Machine.execVmctr2 a0 s
  | .madctl a0 => Sys2Proof.Machine.execMadctl a0 s
  | .vscrsadd a0 => Sys2Proof.Machine.execVscrsadd a0 s
  | .pixfmt a0 => Sys2Proof.Machine.execPixfmt a0 s
  | .frmctr1 a0 a1 => Sys2Proof.Machine.execFrmctr1 a0 a1 s
  | .dfunctr a0 a1 a2 => Sys2Proof.Machine.execDfunctr a0 a1 a2 s
  | .tblCmd opc args => Sys2Proof.Machine.execTblCmd opc args s
  | .convert red green blue => Sys2Proof.Machine.execConvert red green blue s
  | .start w => Sys2Proof.Machine.execStart w s
  | .stop w => Sys2Proof.Machine.execStop w s
  | .ctrlNop w => Sys2Proof.Machine.execCtrlNop w s
  | .readCtrl => Sys2Proof.Machine.execReadCtrl s
  | .readStatus => Sys2Proof.Machine.execReadStatus s
  | .writeStatus w => Sys2Proof.Machine.execWriteStatus w s
  | .writePacing w => Sys2Proof.Machine.execWritePacing w s
  | .readPacing => Sys2Proof.Machine.execReadPacing s
  | .palwr w => Sys2Proof.Machine.execPalwr w s
  | .readPalwr => Sys2Proof.Machine.execReadPalwr s
  | .readPal k => Sys2Proof.Machine.execReadPal k s
  | .writePal k w => Sys2Proof.Machine.execWritePal k w s
  | .reservedHi dir off w => Sys2Proof.Machine.execReservedHi dir off w s
  | .reservedLo dir off w => Sys2Proof.Machine.execReservedLo dir off w s
  | .refusedAccess a => Sys2Proof.Machine.execRefusedAccess a s

end Sys2Proof.Machine
end

