-- ==== Sys2Proof/Machine/Sequencer.lean ====
section
/-! DEFINITION. The sequencer: which instruction of the table a state runs, the moves of the states that have no row of the table (delays, loop top, framebuffer reader), and one clock cycle of all agents (R7). -/

namespace Sys2Proof.Machine

/-- What the sequencer does in a cycle. -/
inductive Activity where
  /-- It runs an instruction of the table. -/
  | instr (i : Instr)
  /-- It is in a state that has no row of the table. -/
  | unit
  /-- The latched frame does not lie in the table (no run reaches this). -/
  | noFrame
deriving DecidableEq, Repr

/-- The latched frame as an instruction (R27, R152). -/
def fetchFrame (s : State) : Activity :=
  match s.tableSlice s.frmBase.toNat s.frmLen.toNat with
  | some args => .instr (decodeFrame s.frmOpc args)
  | none => .noFrame

/-- The instruction that the program counter (SEQ, CURSOR) selects (R22): the group at CURSOR in `S_TBL_DECODE`
(R131), the latched frame in its two transmitting states, the fixed command in its own (log 15). -/
def fetch (s : State) : Activity :=
  match s.seq with
  | .rstTx => .instr .swreset
  | .tblDecode => .instr (decodeGroup (s.par.initTable.drop s.cursor.toNat))
  | .tblOpcTx => fetchFrame s
  | .tblArgTx => fetchFrame s
  | .slpTx => .instr .slpout
  | .donTx => .instr .dispon
  | .rlCmdTx => .instr .ramwr
  | .idle => .unit
  | .rstWait => .unit
  | .slpWait => .unit
  | .donWait => .unit
  | .rlTop => .unit
  | .rlPace => .unit
  | .rlPixTx => .unit
  | .stopped => .unit
  | .initFailed => .unit
  | .rlFailed => .unit

/-- The end of the delay after SWRESET (R162): a noted failure is raised now, else table playback begins (R164). -/
def afterResetDelay (s : State) : State :=
  if s.pendErr then raise .transport s else goTo .tblDecode { s with cursor := 0 }

/-- The top of an iteration (R200): the one place where CANCEL_REQ is read. -/
def loopTop (s : State) : State :=
  if s.cancelReq then goTo .stopped s else goWait .rlPace s.pacingMs s

/-- The framebuffer reader's byte `i` (R204). -/
def pixelByte (s : State) (i : Nat) : Option Byte :=
  if i < s.par.fbBytes then some (s.fbRead i) else none

/-- The framebuffer reader (R204): one cycle of `S_RL_PIX_TX`. -/
def pixelCycle (s : State) : Result :=
  sendCycle .data s.par.fbBytes (pixelByte s) (goTo .rlTop) (raise .transport) s

/-- One cycle of a state that has no row of the table: the delays (R162, R168, R170, R201), the loop top (R200), the
framebuffer reader (R204); the other states take no transition (R293, R322). -/
def unitMove (s : State) : Result :=
  match s.seq with
  | .rstWait => .next (waitCycle afterResetDelay s)
  | .slpWait => .next (waitCycle (goTx .donTx) s)
  | .donWait => .next (waitCycle (goTo .rlTop) s)
  | .rlTop => .next (loopTop s)
  | .rlPace => .next (waitCycle (goTx .rlCmdTx) s)
  | .rlPixTx => pixelCycle s
  | _ => .next s

/-- The block's move in one cycle, `run` the meaning of the table's instructions. -/
def blockMove (run : Instr → State → Result) (s : State) : Result :=
  match fetch s with
  | .instr i => run i s
  | .unit => unitMove s
  | .noFrame => .fault .tableReadOutside

/-- The writer's stores of this cycle are part of the Pixel Buffer (R71). -/
def State.stored (s : State) : State := { s with fb := Memory.writeAll s.fb s.pins.stores }

/-- The pixel-buffer writer's move (R71): its stores are part of the buffer's content from this cycle on (log 7). -/
def writerMove (s : State) : Result :=
  if s.pins.stores.all (fun c => decide (c.1 < s.par.fbBytes)) then
    .next s.stored
  else .fault .storeOutsideBuffer

/-- A host access that is an admitted write: it takes effect at the end of the cycle (R79). -/
def busWrite (a : BusAccess) : Bool := a.wr && a.admitted

/-- The host operation of this cycle, if there is one (R99, R260). -/
def hostInstr (s : State) : Option Instr :=
  match decode (.bus s.pins.bus) with
  | .ok i => some i
  | .error _ => none

/-- The host's move at the start of a cycle (R260): a read answers from the state at the start of the cycle; an access
that is not admitted is refused; without a read `reg_rdata` is 0. -/
def hostReadMove (run : Instr → State → Result) (s : State) : Result :=
  match hostInstr s with
  | some i => if busWrite s.pins.bus then .next (respond 0 s) else run i (respond 0 s)
  | none => .next (respond 0 s)

/-- The host's move at the end of a cycle (R79): an admitted write takes effect. -/
def hostWriteMove (run : Instr → State → Result) (s : State) : Result :=
  match hostInstr s with
  | some i => if busWrite s.pins.bus then run i s else .next s
  | none => .next s

/-- What the block and a host write do in a cycle without block reset. -/
def workMove (run : Instr → State → Result) (s : State) : Result :=
  andThen (blockMove run s) (hostWriteMove run)

/-- What the block does in a cycle: block reset discards every other event of the cycle (R320). -/
def resetOrWork (run : Instr → State → Result) (s : State) : Result :=
  if s.pins.rst then .next (blockReset s) else workMove run s

/-- One clock cycle of all agents (R7; the order of their moves: log 1). -/
def cycle (run : Instr → State → Result) (s : State) : Result :=
  andThen (writerMove s) fun s1 =>
  andThen (hostReadMove run s1) fun s2 =>
  andThen (resetOrWork run s2) fun s3 =>
  .next (clockTick s3)

end Sys2Proof.Machine
end

