-- ==== Sys2Proof/Machine/Place.lean ====
section
/-! DEFINITION. Placing one instruction where the very next step runs it (log 16). -/

namespace Sys2Proof.Machine

/-- A cycle in which the environment does nothing but keep the resources available (R325). -/
def quietPins : Pins where
  rst := false
  resOk := true
  txReady := false
  rspValid := false
  rspErr := false
  bus := { wr := false, rd := false, narrow := false, addr := 0, wdata := 0 }
  stores := []

/-- The next cycle's inputs. -/
def State.withPins (s : State) (p : Pins) : State := { s with inputs := p :: s.inputs.tail }

/-- The transmitting state of a fixed command byte; `S_IDLE` for any other. -/
def commandState (b : Byte) : Seq :=
  if b = 0x01 then .rstTx
  else if b = 0x11 then .slpTx
  else if b = 0x29 then .donTx
  else if b = 0x2C then .rlCmdTx
  else .idle

/-- The state with the code placed where the next step runs it: table bytes become the whole init table, with the
cursor at its start; a frame becomes the init table, latched; a fixed command is the start of its transaction; a host
access is on the bus in this cycle. The converter has no place of its own: it runs inside PALWR. -/
def placeCode (c : Code) (s : State) : State :=
  match c with
  | .table bytes =>
    { s with par := { s.par with initTable := bytes }, seq := .tblDecode, cursor := 0 }.withPins quietPins
  | .frame opc args =>
    (goTx .tblOpcTx
      { s with
        par := { s.par with initTable := BitVec.ofNat 8 args.length :: opc :: args }
        frmOpc := opc
        frmLen := BitVec.ofNat 8 args.length
        frmBase := 2
        cursor := BitVec.ofNat 16 (args.length + 2) }).withPins quietPins
  | .command b => (goTx (commandState b) s).withPins quietPins
  | .bus a => s.withPins { quietPins with bus := a }
  | .rgb _ _ _ => s.withPins quietPins

end Sys2Proof.Machine
end

