-- ==== Sys2Proof/Machine/Step.lean ====
section
/-! DEFINITION. The step: one clock cycle of the block and its environment. -/

namespace Sys2Proof.Machine

/-- One clock cycle (R7). -/
def step (s : State) : Host.Outcome State Fault Refusal := cycle exec s

/-- The state with the instruction of a word of opcode_table.json placed where the next step runs it (log 16). -/
def State.withFetchWord (s : State) (nbits w : Nat) : State := placeCode (codeOfTableWord nbits w) s

end Sys2Proof.Machine
end

