-- ==== Sys2Proof/Safety.lean ====
section
/-! DEFINITION. What counts as a safe run: the duties of the environment (R270), and the invariant of the block. -/

namespace Sys2Proof

open Sys2Proof.Machine

/-- The environment keeps its duties in a cycle (R270): the host makes no access that the interface does not admit
(R67, R260), the writer stores only inside the Pixel Buffer (R60). Nothing is asked of the transport. -/
def Pins.dutiful (p : Pins) (fbBytes : Nat) : Prop :=
  (p.bus.present = true → p.bus.admitted = true) ∧ ∀ c ∈ p.stores, c.1 < fbBytes

/-- A cycle in which the transport accepts and answers ok, the buffer stays as it is, and the host keeps its duties; the
host may still read and write registers (70_reset_and_hazards.md R341). -/
def Pins.ideal (p : Pins) : Prop :=
  p.rst = false ∧ p.txReady = true ∧ p.rspValid = true ∧ p.rspErr = false ∧ p.stores = [] ∧
    (p.bus.present = true → p.bus.admitted = true)

/-- The opcode and the arguments of a table command (R179 to R188). -/
def Instr.frameOf : Instr → Option (Byte × List Byte)
  | .pwctr1 a0 => some (0xC0, [a0])
  | .pwctr2 a0 => some (0xC1, [a0])
  | .vmctr1 a0 a1 => some (0xC5, [a0, a1])
  | .vmctr2 a0 => some (0xC7, [a0])
  | .madctl a0 => some (0x36, [a0])
  | .vscrsadd a0 => some (0x37, [a0])
  | .pixfmt a0 => some (0x3A, [a0])
  | .frmctr1 a0 a1 => some (0xB1, [a0, a1])
  | .dfunctr a0 a1 a2 => some (0xB6, [a0, a1, a2])
  | .tblCmd opc args => some (opc, args)
  | .tblSentinel => none
  | .tblGroup _ _ => none
  | .malformed _ => none
  | .swreset => none
  | .slpout => none
  | .dispon => none
  | .ramwr => none
  | .convert _ _ _ => none
  | .start _ => none
  | .stop _ => none
  | .ctrlNop _ => none
  | .readCtrl => none
  | .readStatus => none
  | .writeStatus _ => none
  | .writePacing _ => none
  | .readPacing => none
  | .palwr _ => none
  | .readPalwr => none
  | .readPal _ => none
  | .writePal _ _ => none
  | .reservedHi _ _ _ => none
  | .reservedLo _ _ _ => none
  | .refusedAccess _ => none

/-- The byte of a fixed panel command (R95). -/
def Instr.fixedByte (i : Instr) (p : Params) : Option Byte :=
  match i with
  | .swreset => some p.opcSwreset
  | .slpout => some p.opcSlpout
  | .dispon => some p.opcDispon
  | .ramwr => some p.opcRamwr
  | .tblSentinel => none
  | .tblGroup _ _ => none
  | .malformed _ => none
  | .pwctr1 _ => none
  | .pwctr2 _ => none
  | .vmctr1 _ _ => none
  | .vmctr2 _ => none
  | .madctl _ => none
  | .vscrsadd _ => none
  | .pixfmt _ => none
  | .frmctr1 _ _ => none
  | .dfunctr _ _ _ => none
  | .tblCmd _ _ => none
  | .convert _ _ _ => none
  | .start _ => none
  | .stop _ => none
  | .ctrlNop _ => none
  | .readCtrl => none
  | .readStatus => none
  | .writeStatus _ => none
  | .writePacing _ => none
  | .readPacing => none
  | .palwr _ => none
  | .readPalwr => none
  | .readPal _ => none
  | .writePal _ _ => none
  | .reservedHi _ _ _ => none
  | .reservedLo _ _ _ => none
  | .refusedAccess _ => none

/-- The transaction that a panel command performs in a state (R152): its mode and its bytes. -/
def Instr.sends (i : Instr) (s : State) : Option (Mode × List Byte) :=
  match i.fixedByte s.par with
  | some b => some (.command, [b])
  | none =>
    match i.frameOf with
    | some (opc, args) => some (if s.seq = .tblArgTx then (.data, args) else (.command, [opc]))
    | none => none

/-- The instruction is one that the sequencer runs: a table group form or a panel command (R2 a, b). -/
def Instr.ofSequencer : Instr → Bool
  | .tblSentinel => true
  | .tblGroup _ _ => true
  | .malformed _ => true
  | .swreset => true
  | .slpout => true
  | .dispon => true
  | .ramwr => true
  | .pwctr1 _ => true
  | .pwctr2 _ => true
  | .vmctr1 _ _ => true
  | .vmctr2 _ => true
  | .madctl _ => true
  | .vscrsadd _ => true
  | .pixfmt _ => true
  | .frmctr1 _ _ => true
  | .dfunctr _ _ _ => true
  | .tblCmd _ _ => true
  | .convert _ _ _ => false
  | .start _ => false
  | .stop _ => false
  | .ctrlNop _ => false
  | .readCtrl => false
  | .readStatus => false
  | .writeStatus _ => false
  | .writePacing _ => false
  | .readPacing => false
  | .palwr _ => false
  | .readPalwr => false
  | .readPal _ => false
  | .writePal _ _ => false
  | .reservedHi _ _ _ => false
  | .reservedLo _ _ _ => false
  | .refusedAccess _ => false

end Sys2Proof

namespace Sys2Proof.Machine

/-- The lanes of a palette word: bits 31:24, 17:16, 9:8 and 1:0 are 0 (R34, R240). -/
def laneWord (w : Word) : Prop := w &&& 0xFF030303 = 0

/-- The transaction in progress: while the state transmits, `dc` has its mode and the bytes handed over are as many as
the index counts (R151 to R153); outside a transaction no byte has been handed over. -/
structure State.TxInv (s : State) : Prop where
  outside : txMode s.seq = none ∨ s.txs = .setup → s.sent = []
  stream : ∀ m, txMode s.seq = some m → s.txs = .stream →
    s.dc = m ∧ s.txIdx < s.txLen ∧ s.sent.length = s.txIdx
  wait : ∀ m, txMode s.seq = some m → s.txs = .wait → s.dc = m ∧ s.sent.length = s.txLen

/-- The bytes handed over are those of R152, in ascending index order (R63); the pixel bytes are left out, since the
buffer may have changed since (R71). -/
def State.SentInv (s : State) : Prop :=
  ∀ m, txMode s.seq = some m → s.seq ≠ .rlPixTx → s.txs ≠ .setup →
    ∀ j, j < s.sent.length → s.sent[j]? = s.txByte j

/-- The shape of a log entry (R10, R95, R152): a COMMAND transaction has one byte, a DATA transaction at least one. -/
def Transaction.wf (t : Transaction) : Prop :=
  match t.mode with
  | .command => t.bytes.length = 1
  | .data => 1 ≤ t.bytes.length

/-- The invariant of the block. -/
structure State.Inv (s : State) : Prop where
  /-- The parameters lie in their ranges (R5). -/
  params : s.par.wf = true
  /-- `TX_IDX` fits its width (R25). -/
  indexFits : s.txIdx < 2 ^ s.par.txIdxWidth
  /-- The palette has `PAL_ENTRIES` entries (R5, R34). -/
  paletteSize : s.pal.length = s.par.palEntries
  /-- Every palette entry is a convert result (R34). -/
  palette : ∀ w ∈ s.pal, laneWord w
  /-- The Pixel Buffer is in canonical form. -/
  bufferForm : Memory.wf s.fb = true
  /-- The Pixel Buffer has `FB_BYTES` offsets (R60). -/
  bufferSize : Memory.below s.par.fbBytes s.fb = true
  /-- PRE counts the cycles within a millisecond (R29). -/
  prescaler : s.pre < s.par.cyclesPerMs
  /-- CURSOR never exceeds TABLE_LEN (R22, R136). -/
  cursorInTable : s.cursor.toNat ≤ s.par.tableLen
  /-- A frame being transmitted ends where CURSOR stands (R133) and has arguments (R27). -/
  frame : s.seq = .tblOpcTx ∨ s.seq = .tblArgTx →
    1 ≤ s.frmLen.toNat ∧ s.frmBase.toNat + s.frmLen.toNat = s.cursor.toNat
  /-- The transaction in progress. -/
  tx : s.TxInv
  /-- The bytes handed over. -/
  sentBytes : s.SentInv
  /-- ERR holds a code exactly in the failed states (R31, R292). -/
  errFailed : s.err ≠ .none ↔ s.seq = .initFailed ∨ s.seq = .rlFailed
  /-- The loop fails by a TransportError only (R290). -/
  loopErr : s.seq = .rlFailed → s.err = .transport
  /-- The loop stops on cancellation only (R200). -/
  stoppedCancelled : s.seq = .stopped → s.cancelReq = true
  /-- Every log entry has the shape of R152. -/
  logForm : ∀ t ∈ s.log, t.wf

/-- The registers of the engine and of the timing unit, the transaction in progress, the log, the Pixel Buffer and the
parameters are the same: what the host reaches by START alone. -/
structure State.EngineSame (s t : State) : Prop where
  par : t.par = s.par
  seq : t.seq = s.seq
  txs : t.txs = s.txs
  txIdx : t.txIdx = s.txIdx
  cursor : t.cursor = s.cursor
  frmOpc : t.frmOpc = s.frmOpc
  frmLen : t.frmLen = s.frmLen
  frmBase : t.frmBase = s.frmBase
  pendErr : t.pendErr = s.pendErr
  msLeft : t.msLeft = s.msLeft
  pre : t.pre = s.pre
  dc : t.dc = s.dc
  err : t.err = s.err
  fb : t.fb = s.fb
  sent : t.sent = s.sent
  log : t.log = s.log

/-- What only host operations and the environment change is the same: the host's registers, the observations of the
host side, the Pixel Buffer, the parameters and the inputs. -/
structure State.HostSideSame (s t : State) : Prop where
  par : t.par = s.par
  cancelReq : t.cancelReq = s.cancelReq
  pacingMs : t.pacingMs = s.pacingMs
  pal : t.pal = s.pal
  fb : t.fb = s.fb
  rdata : t.rdata = s.rdata
  convOut : t.convOut = s.convOut
  inputs : t.inputs = s.inputs
  cycle : t.cycle = s.cycle

/-- The state that the block sees in a cycle: the writer's stores of the cycle are part of the buffer (R64, R71), and
`reg_rdata` is 0 unless the host reads (R260). -/
def State.opened (s : State) : State := respond 0 s.stored

end Sys2Proof.Machine
end

