-- ==== Sys2Proof/Certificates/Slice0/Obligations.lean ====
section
/-! DEFINITION. The statements for the provers. Each docstring names the rules it formalises. -/

open Sys2Proof Sys2Proof.Machine

/-! ### Encodings -/

/-- Decoding what the encoder writes gives the instruction back, for every well-formed instruction and every value of
its operands (R90, R99, R152, R240; the four command bytes are the defaults of R96). -/
def Obligations.DecodeOfEncodeIsInstruction : Prop :=
  ∀ i : Instr, i.wellFormed = true → decode (encode i) = .ok i

/-- R90, R91, R130: the decoder answers a group exactly where the bytes begin with it: the count of its arguments, its
opcode, its arguments; what follows is not looked at. -/
def Obligations.GroupIsReadExactly : Prop :=
  ∀ (bytes : List Byte) (opc : Byte) (args : List Byte),
    decodeGroup bytes = .tblGroup opc args ↔
      (1 ≤ args.length ∧ args.length ≤ 255 ∧
        ∃ rest, bytes = BitVec.ofNat 8 args.length :: opc :: (args ++ rest))

/-- R93, R130, R134: the sentinel is a length byte 0 and nothing else; a table is malformed exactly where no length
byte is left or the group overruns. -/
def Obligations.SentinelAndOverrunExactly : Prop :=
  ∀ bytes : List Byte,
    (decodeGroup bytes = .tblSentinel ↔ ∃ rest, bytes = 0 :: rest) ∧
    ((∃ n, decodeGroup bytes = .malformed n) ↔
      (bytes = [] ∨ ∃ n rest, bytes = n :: rest ∧ n ≠ 0 ∧ bytes.length < n.toNat + 2))

/-- R99: every host access is some well-formed host operation, and encoding the operation gives the access back
(the data pins of a read carry nothing). -/
def Obligations.HostAccessEncodesBack : Prop :=
  ∀ a : BusAccess, a.present = true →
    ∃ i a', decode (.bus a) = .ok i ∧ i.wellFormed = true ∧ encode i = .bus a' ∧
      a'.wr = a.wr ∧ a'.rd = a.rd ∧ a'.narrow = a.narrow ∧ a'.addr = a.addr ∧
      (a.wr = true → a'.wdata = a.wdata)

/-- R67, R260: an access is refused exactly where it reads and writes at once, is narrower than a word, or lies at an
offset that is no multiple of 4. -/
def Obligations.RefusedExactlyWhenNotAdmitted : Prop :=
  ∀ a : BusAccess,
    decode (.bus a) = .ok (.refusedAccess a) ↔
      ((a.wr = true ∧ a.rd = true) ∨
        ((a.wr = true ∨ a.rd = true) ∧ (a.narrow = true ∨ a.addr.toNat % 4 ≠ 0)))

/-- A few words written out from 30_encoding.md (R90, R96, R97, R99) decode to what they stand for. -/
def Obligations.SampleWordsDecode : Prop :=
  decodeTableWord 8 0x00 = some .tblSentinel ∧
  decodeTableWord 8 0x01 = some .swreset ∧
  decodeTableWord 24 0x01C023 = some (.pwctr1 0x23) ∧
  decodeTableWord 32 0x02C53E28 = some (.vmctr1 0x3E 0x28) ∧
  decodeTableWord 40 0x03B6088227 = some (.dfunctr 0x08 0x82 0x27) ∧
  decodeTableWord 48 0x10000000003 = some (.start 3) ∧
  decodeTableWord 48 0x10C023F3F3F = some (.palwr 0x023F3F3F) ∧
  decodeTableWord 48 0x04800000000 = some (.readPal 2)

/-! ### The step -/

/-- One step is one clock cycle (R7, R9, R79, R260): with no block reset and the writer's stores inside the buffer, the
step runs the host's read on the state the cycle opens with, then the block's move, then the host's write, then the
clock; and the block's move is `exec` of the instruction that the program counter selects. -/
def Obligations.StepRunsFetchedInstruction : Prop :=
  ∀ s : State, s.pins.rst = false → (∀ c ∈ s.pins.stores, c.1 < s.par.fbBytes) →
    (hostInstr s = none →
      step s = andThen (blockMove exec s.opened) fun t => .next (clockTick t)) ∧
    (∀ h, hostInstr s = some h → busWrite s.pins.bus = true →
      step s = andThen (blockMove exec s.opened) fun t => andThen (exec h t) fun u => .next (clockTick u)) ∧
    (∀ h, hostInstr s = some h → busWrite s.pins.bus = false →
      step s = andThen (exec h s.opened) fun r => andThen (blockMove exec r) fun t => .next (clockTick t)) ∧
    (∀ i, fetch s.opened = .instr i → blockMove exec s.opened = exec i s.opened)

/-! ### Reset -/

/-- R321: the values that block reset leaves, by their encodings; PACING_MS takes the parameter. -/
def Obligations.ResetLeavesSpecValues : Prop :=
  ∀ p : Params,
    let s := State.resetWith p
    s.seq.code = 0 ∧ s.seq.phase = 0 ∧ s.txs.code = 0 ∧ s.txIdx = 0 ∧ s.cursor = 0 ∧ s.frmOpc = 0 ∧ s.frmLen = 0 ∧
      s.frmBase = 0 ∧ s.pendErr = false ∧ s.msLeft = 0 ∧ s.pre = 0 ∧ s.dc.code = 0 ∧ s.err.code = 0 ∧
      s.cancelReq = false ∧ s.pacingMs = p.pacingResetMs ∧ s.pal = List.replicate p.palEntries 0 ∧
      s.txPort = { valid := false, data := 0, last := false } ∧ s.fbAddr = 0 ∧ s.rdata = 0 ∧ s.statusWord = 0

/-- R320, R323: in a cycle with `rst` = 1 every state element takes its reset value, whatever else happens in the cycle;
the parameters, the Pixel Buffer (with the writer's stores of the cycle) and the log of completed transactions stay. -/
def Obligations.BlockResetDiscardsTheCycle : Prop :=
  ∀ s : State, s.pins.rst = true → Pins.dutiful s.pins s.par.fbBytes →
    ∃ t, step s = .next t ∧
      t.seq = .idle ∧ t.txs = .setup ∧ t.txIdx = 0 ∧ t.cursor = 0 ∧ t.frmOpc = 0 ∧ t.frmLen = 0 ∧ t.frmBase = 0 ∧
      t.pendErr = false ∧ t.msLeft = 0 ∧ t.pre = 0 ∧ t.dc = .command ∧ t.err = .none ∧ t.cancelReq = false ∧
      t.pacingMs = s.par.pacingResetMs ∧ t.pal = List.replicate s.par.palEntries 0 ∧
      t.par = s.par ∧ t.fb = Memory.writeAll s.fb s.pins.stores ∧ t.log = s.log ∧ t.sent = []

/-! ### The command decoder -/

/-- R132, R134, R292: the sentinel enters SLPOUT's transaction, CURSOR and everything else stay; a truncated table raises
MalformedTable, ERR and SEQ are all that changes. -/
def Obligations.SentinelAndMalformedComplete : Prop :=
  ∀ s : State,
    exec .tblSentinel s = .next { s with seq := .slpTx, txs := .setup, txIdx := 0 } ∧
    (∀ n : Option Byte, s.seq = .tblDecode →
      exec (.malformed n) s = .next { s with err := .malformedTable, seq := .initFailed })

/-- R133: a group is latched and CURSOR advances by n + 2, without truncation; everything else stays. -/
def Obligations.GroupLatchesFrameAndAdvances : Prop :=
  ∀ (s : State) (opc : Byte) (args : List Byte), s.par.wf = true → 1 ≤ args.length → args.length ≤ 255 →
    s.cursor.toNat + args.length + 2 ≤ s.par.tableLen →
    ∃ (len : BitVec 8) (base next : BitVec 16),
      exec (.tblGroup opc args) s =
        .next { s with
          frmLen := len, frmOpc := opc, frmBase := base, cursor := next, seq := .tblOpcTx, txs := .setup, txIdx := 0 } ∧
      len.toNat = args.length ∧ base.toNat = s.cursor.toNat + 2 ∧ next.toNat = s.cursor.toNat + args.length + 2 ∧
      next.toNat ≤ s.par.tableLen

/-- R130, R131, R295: one decode step, by the bytes at CURSOR: Malformed where no length byte is left, then the
sentinel, then Malformed where the group overruns, else the frame. -/
def Obligations.DecodeStepFollowsTheTable : Prop :=
  ∀ s : State, s.par.wf = true → s.seq = .tblDecode →
    (s.par.tableLen ≤ s.cursor.toNat →
      blockMove exec s = .next { s with err := .malformedTable, seq := .initFailed }) ∧
    (∀ n, s.tableRead s.cursor.toNat = some n →
      (n = 0 → blockMove exec s = .next { s with seq := .slpTx, txs := .setup, txIdx := 0 }) ∧
      (n ≠ 0 → s.par.tableLen < s.cursor.toNat + n.toNat + 2 →
        blockMove exec s = .next { s with err := .malformedTable, seq := .initFailed }) ∧
      (n ≠ 0 → s.cursor.toNat + n.toNat + 2 ≤ s.par.tableLen →
        ∃ (opc : Byte) (base next : BitVec 16),
          s.tableRead (s.cursor.toNat + 1) = some opc ∧ base.toNat = s.cursor.toNat + 2 ∧
          next.toNat = s.cursor.toNat + n.toNat + 2 ∧
          blockMove exec s = .next { s with
            frmLen := n, frmOpc := opc, frmBase := base, cursor := next,
            seq := .tblOpcTx, txs := .setup, txIdx := 0 }))

/-! ### Transactions -/

/-- R151: the TX_SETUP cycle of every panel command drives `dc` with the mode of its transaction and starts the stream;
nothing else changes. -/
def Obligations.SetupDrivesModeSelect : Prop :=
  ∀ (i : Instr) (s : State) (m : Mode) (bytes : List Byte), i.sends s = some (m, bytes) → s.txs = .setup →
    exec i s = .next { s with dc := m, txs := .stream, txIdx := 0, sent := [] }

/-- R151: a handshake of every panel command hands over the byte at TX_IDX; the last one ends the stream; without
`tx_ready`, and without `rsp_valid` in TX_WAIT, nothing changes. -/
def Obligations.HandshakeSendsTheIndexedByte : Prop :=
  ∀ (i : Instr) (s : State) (m : Mode) (bytes : List Byte), i.sends s = some (m, bytes) →
    (s.txs = .stream → ∀ b, bytes[s.txIdx]? = some b →
      (s.pins.txReady = false → exec i s = .next s) ∧
      (s.pins.txReady = true → s.txIdx + 1 = bytes.length →
        exec i s = .next { s with txs := .wait, sent := s.sent ++ [b] }) ∧
      (s.pins.txReady = true → s.txIdx + 1 ≠ bytes.length →
        exec i s = .next { s with txIdx := s.txIdx + 1, sent := s.sent ++ [b] })) ∧
    (s.txs = .wait → s.pins.rspValid = false → exec i s = .next s)

/-- R161: SWRESET's response is logged and noted in PEND_ERR, and the settle delay follows for ok and for err. -/
def Obligations.SwresetCompletes : Prop :=
  ∀ s : State, s.Inv → s.seq = .rstTx → s.txs = .wait → s.pins.rspValid = true →
    exec .swreset s = .next { s with
      log := s.log ++ [{ mode := .command, bytes := [s.par.opcSwreset], result := s.response }], sent := [],
      pendErr := s.pins.rspErr, seq := .rstWait, msLeft := s.par.settleMs, pre := 0 }

/-- R167: SLPOUT's ok starts its settle delay, its err raises TransportError at once. -/
def Obligations.SlpoutCompletes : Prop :=
  ∀ s : State, s.Inv → s.seq = .slpTx → s.txs = .wait → s.pins.rspValid = true →
    (s.pins.rspErr = false → exec .slpout s = .next { s with
      log := s.log ++ [{ mode := .command, bytes := [s.par.opcSlpout], result := .ok }], sent := [],
      seq := .slpWait, msLeft := s.par.settleMs, pre := 0 }) ∧
    (s.pins.rspErr = true → exec .slpout s = .next { s with
      log := s.log ++ [{ mode := .command, bytes := [s.par.opcSlpout], result := .err }], sent := [],
      seq := .initFailed, err := .transport })

/-- R169: DISPON's ok starts its settle delay, its err raises TransportError at once. -/
def Obligations.DisponCompletes : Prop :=
  ∀ s : State, s.Inv → s.seq = .donTx → s.txs = .wait → s.pins.rspValid = true →
    (s.pins.rspErr = false → exec .dispon s = .next { s with
      log := s.log ++ [{ mode := .command, bytes := [s.par.opcDispon], result := .ok }], sent := [],
      seq := .donWait, msLeft := s.par.settleMs, pre := 0 }) ∧
    (s.pins.rspErr = true → exec .dispon s = .next { s with
      log := s.log ++ [{ mode := .command, bytes := [s.par.opcDispon], result := .err }], sent := [],
      seq := .initFailed, err := .transport })

/-- R203: RAMWR's ok starts the pixel-data transaction, its err ends the loop. -/
def Obligations.RamwrCompletes : Prop :=
  ∀ s : State, s.Inv → s.seq = .rlCmdTx → s.txs = .wait → s.pins.rspValid = true →
    (s.pins.rspErr = false → exec .ramwr s = .next { s with
      log := s.log ++ [{ mode := .command, bytes := [s.par.opcRamwr], result := .ok }], sent := [],
      seq := .rlPixTx, txs := .setup, txIdx := 0 }) ∧
    (s.pins.rspErr = true → exec .ramwr s = .next { s with
      log := s.log ++ [{ mode := .command, bytes := [s.par.opcRamwr], result := .err }], sent := [],
      seq := .rlFailed, err := .transport })

/-- R165, R188: the opcode of every table command, named or not, is sent as COMMAND; on ok its arguments follow, on err
TransportError is raised. -/
def Obligations.TableCommandOpcodeCompletes : Prop :=
  ∀ (s : State) (i : Instr) (opc : Byte) (args : List Byte),
    s.Inv → s.seq = .tblOpcTx → s.txs = .wait → s.pins.rspValid = true →
    fetch s = .instr i → i.frameOf = some (opc, args) →
    (s.pins.rspErr = false → exec i s = .next { s with
      log := s.log ++ [{ mode := .command, bytes := [opc], result := .ok }], sent := [],
      seq := .tblArgTx, txs := .setup, txIdx := 0 }) ∧
    (s.pins.rspErr = true → exec i s = .next { s with
      log := s.log ++ [{ mode := .command, bytes := [opc], result := .err }], sent := [],
      seq := .initFailed, err := .transport })

/-- R166, R188: the arguments of every table command are sent in one DATA transaction; on ok the next group is decoded,
on err TransportError is raised. -/
def Obligations.TableCommandArgumentsComplete : Prop :=
  ∀ (s : State) (i : Instr) (opc : Byte) (args : List Byte),
    s.Inv → s.seq = .tblArgTx → s.txs = .wait → s.pins.rspValid = true →
    fetch s = .instr i → i.frameOf = some (opc, args) →
    (s.pins.rspErr = false → exec i s = .next { s with
      log := s.log ++ [{ mode := .data, bytes := args, result := .ok }], sent := [], seq := .tblDecode }) ∧
    (s.pins.rspErr = true → exec i s = .next { s with
      log := s.log ++ [{ mode := .data, bytes := args, result := .err }], sent := [],
      seq := .initFailed, err := .transport })

/-- R165, R166: while a frame is transmitted, the program counter selects the table command whose opcode and arguments
are the latched frame's. -/
def Obligations.LatchedFrameIsFetched : Prop :=
  ∀ s : State, s.Inv → s.seq = .tblOpcTx ∨ s.seq = .tblArgTx →
    ∃ i args, fetch s = .instr i ∧ i.wellFormed = true ∧ i.frameOf = some (s.frmOpc, args) ∧
      args.length = s.frmLen.toNat ∧ ∀ j, j < args.length → args[j]? = s.tableRead (s.frmBase.toNat + j)

/-- R179 to R188: the block does not treat a named table command differently from any other. -/
def Obligations.NamedCommandsActAsAnyFrame : Prop :=
  ∀ (s : State) (i : Instr) (opc : Byte) (args : List Byte), i.frameOf = some (opc, args) →
    exec i s = exec (.tblCmd opc args) s

/-- R151, R64: in a TX_STREAM cycle the step hands over exactly the byte on `tx_data` where `tx_ready` is 1, `tx_last`
says that it is the last, and nothing is handed over where `tx_ready` is 0. -/
def Obligations.StepHandsOverThePortByte : Prop :=
  ∀ (s t : State) (m : Mode), s.Inv → s.pins.rst = false → txMode s.seq = some m → s.txs = .stream → step s = .next t →
    s.opened.txPort.valid = true ∧ t.seq = s.seq ∧ t.dc = s.dc ∧ t.log = s.log ∧
    (s.pins.txReady = true → t.sent = s.sent ++ [s.opened.txPort.data] ∧
      (t.txs = .wait ↔ s.opened.txPort.last = true)) ∧
    (s.pins.txReady = false → t.sent = s.sent ∧ t.txs = .stream ∧ t.txIdx = s.txIdx)

/-- R150, R152, R73: the log never loses an entry; a step adds at most one, and only where a transmitting state gets its
response; the entry has that state's mode and length, and (but for pixel data, which the writer may change meanwhile)
its bytes. -/
def Obligations.LogGainsTheStatesTransaction : Prop :=
  ∀ s t : State, s.Inv → step s = .next t →
    t.log = s.log ∨
    ∃ m bytes, txMode s.seq = some m ∧ s.txs = .wait ∧ s.pins.rspValid = true ∧
      t.log = s.log ++ [{ mode := m, bytes := bytes, result := s.response }] ∧ bytes.length = s.txLen ∧
      (s.seq ≠ .rlPixTx → ∀ j, j < s.txLen → bytes[j]? = s.txByte j)

/-- R341, R151: with an ideal transport and a buffer that stays as it is, a transaction of L bytes takes L + 2 cycles,
whatever the host does meanwhile: after L + 1 it is still in progress, after L + 2 the log has gained it, with the bytes
of R152 in ascending order. -/
def Obligations.IdealTransactionTakesLengthPlusTwo : Prop :=
  ∀ (s : State) (m : Mode), s.Inv → txMode s.seq = some m → s.txs = .setup →
    s.txLen + 2 ≤ s.inputs.length → (∀ p ∈ s.inputs.take (s.txLen + 2), Pins.ideal p) →
    (∃ t, core.run (s.txLen + 1) s = .next t ∧ t.seq = s.seq ∧ t.txs = .wait ∧ t.log = s.log) ∧
    (∃ t bytes, core.run (s.txLen + 2) s = .next t ∧ t.seq ≠ s.seq ∧
      t.log = s.log ++ [{ mode := m, bytes := bytes, result := .ok }] ∧
      bytes.length = s.txLen ∧ ∀ j, j < s.txLen → bytes[j]? = s.txByte j)

/-- R154: nothing ends a transaction early: without block reset a step leaves a transmitting state only in the cycle of
its response, whatever the host does. -/
def Obligations.OnlyTheResponseEndsATransaction : Prop :=
  ∀ (s t : State) (m : Mode), s.pins.rst = false → txMode s.seq = some m → step s = .next t →
    (s.txs = .wait → s.pins.rspValid = false) → t.seq = s.seq ∧ t.log = s.log

/-! ### Delays and the refresh loop -/

/-- R211, R162, R168, R170, R201: one cycle of each wait state: its successor where MS_LEFT is 0, else the count. -/
def Obligations.WaitStatesCountDown : Prop :=
  ∀ s : State, s.seq.waiting = true →
    (s.msLeft = 0 →
      (s.seq = .rstWait → s.pendErr = false →
        blockMove exec s = .next { s with seq := .tblDecode, cursor := 0 }) ∧
      (s.seq = .rstWait → s.pendErr = true →
        blockMove exec s = .next { s with seq := .initFailed, err := .transport }) ∧
      (s.seq = .slpWait → blockMove exec s = .next { s with seq := .donTx, txs := .setup, txIdx := 0 }) ∧
      (s.seq = .donWait → blockMove exec s = .next { s with seq := .rlTop }) ∧
      (s.seq = .rlPace → blockMove exec s = .next { s with seq := .rlCmdTx, txs := .setup, txIdx := 0 })) ∧
    (s.msLeft ≠ 0 →
      (s.pre + 1 = s.par.cyclesPerMs →
        ∃ left : BitVec 16, left.toNat + 1 = s.msLeft.toNat ∧
          blockMove exec s = .next { s with pre := 0, msLeft := left }) ∧
      (s.pre + 1 ≠ s.par.cyclesPerMs → blockMove exec s = .next { s with pre := s.pre + 1 }))

/-- R212, R330: a wait of N ms occupies exactly N * CYCLES_PER_MS + 1 cycles, whatever the host, the transport and the
writer do meanwhile. -/
def Obligations.WaitLastsExactly : Prop :=
  ∀ s : State, s.Inv → s.seq.waiting = true → s.pre = 0 →
    s.msLeft.toNat * s.par.cyclesPerMs + 1 ≤ s.inputs.length →
    (∀ p ∈ s.inputs, p.rst = false ∧ Pins.dutiful p s.par.fbBytes) →
    (∀ k, k ≤ s.msLeft.toNat * s.par.cyclesPerMs → ∃ t, core.run k s = .next t ∧ t.seq = s.seq) ∧
    (∃ t, core.run (s.msLeft.toNat * s.par.cyclesPerMs + 1) s = .next t ∧ t.seq ≠ s.seq)

/-- R200: the loop top stops on CANCEL_REQ, else loads the pacing wait with PACING_MS. -/
def Obligations.LoopTopChecksCancellation : Prop :=
  ∀ s : State, s.seq = .rlTop →
    (s.cancelReq = true → blockMove exec s = .next { s with seq := .stopped }) ∧
    (s.cancelReq = false → blockMove exec s = .next { s with seq := .rlPace, msLeft := s.pacingMs, pre := 0 })

/-- R213: MS_LEFT and PRE change only in wait states and on entry to one. -/
def Obligations.TimersChangeOnlyInWaits : Prop :=
  ∀ s t : State, s.pins.rst = false → s.seq.waiting = false → step s = .next t →
    (t.msLeft = s.msLeft ∧ t.pre = s.pre) ∨ t.seq.waiting = true

/-- R204, R64: a handshake of the framebuffer reader hands over the byte that the Pixel Buffer holds at TX_IDX, the offset
on `fb_addr`; the response leads to the loop top, or ends the loop. -/
def Obligations.PixelReaderSendsTheBuffer : Prop :=
  ∀ s : State, s.Inv → s.seq = .rlPixTx →
    (s.txs = .stream → s.pins.txReady = true → s.txIdx + 1 ≠ s.par.fbBytes →
      blockMove exec s = .next { s with txIdx := s.txIdx + 1, sent := s.sent ++ [s.fbRead s.txIdx] } ∧
      s.fbAddr.toNat = s.txIdx) ∧
    (s.txs = .stream → s.pins.txReady = true → s.txIdx + 1 = s.par.fbBytes →
      blockMove exec s = .next { s with txs := .wait, sent := s.sent ++ [s.fbRead s.txIdx] }) ∧
    (s.txs = .wait → s.pins.rspValid = true → s.pins.rspErr = false →
      s.sent.length = s.par.fbBytes ∧
      blockMove exec s = .next { s with
        log := s.log ++ [{ mode := .data, bytes := s.sent, result := .ok }], sent := [], seq := .rlTop }) ∧
    (s.txs = .wait → s.pins.rspValid = true → s.pins.rspErr = true →
      blockMove exec s = .next { s with
        log := s.log ++ [{ mode := .data, bytes := s.sent, result := .err }], sent := [],
        seq := .rlFailed, err := .transport })

/-! ### Host operations and the converter -/

/-- R261, R263: a write of CTRL with bit 0 is START: it begins bring-up in `S_IDLE` with `res_ok`, raises
ResourceUnavailable there without it, and is ignored elsewhere; with bit 1 set STOP applies as well. -/
def Obligations.StartBeginsBringUpOnlyInIdle : Prop :=
  ∀ (s : State) (w : Word), w.getLsbD 0 = true →
    decode (busCode .write 0x00 w) = .ok (.start w) ∧
    (s.seq = .idle → s.pins.resOk = true →
      exec (.start w) s = .next { s with
        seq := .rstTx, txs := .setup, txIdx := 0, pendErr := false, cancelReq := s.cancelReq || w.getLsbD 1 }) ∧
    (s.seq = .idle → s.pins.resOk = false →
      exec (.start w) s = .next { s with
        seq := .initFailed, err := .resource, cancelReq := s.cancelReq || w.getLsbD 1 }) ∧
    (s.seq ≠ .idle → exec (.start w) s = .next { s with cancelReq := s.cancelReq || w.getLsbD 1 })

/-- R262, R263: a write of CTRL with bit 1 set and bit 0 clear sets CANCEL_REQ in every state, and nothing else; with
both bits clear it has no effect. -/
def Obligations.CtrlWritesWithoutStart : Prop :=
  ∀ (s : State) (w : Word), w.getLsbD 0 = false →
    (w.getLsbD 1 = true →
      decode (busCode .write 0x00 w) = .ok (.stop w) ∧ exec (.stop w) s = .next { s with cancelReq := true }) ∧
    (w.getLsbD 1 = false →
      decode (busCode .write 0x00 w) = .ok (.ctrlNop w) ∧ exec (.ctrlNop w) s = .next s)

/-- R264: reads of CTRL and of PALWR return 0 and have no effect. -/
def Obligations.WriteOnlyRegistersReadZero : Prop :=
  ∀ (s : State) (w : Word),
    decode (busCode .read 0x00 w) = .ok .readCtrl ∧ exec .readCtrl s = .next { s with rdata := 0 } ∧
    decode (busCode .read 0x0C w) = .ok .readPalwr ∧ exec .readPalwr s = .next { s with rdata := 0 }

/-- R266: writes to STATUS and to the palette entries have no effect at all. -/
def Obligations.ReadOnlyRegistersIgnoreWrites : Prop :=
  ∀ (s : State) (w : Word) (k : Fin 16),
    decode (busCode .write 0x04 w) = .ok (.writeStatus w) ∧ exec (.writeStatus w) s = .next s ∧
    decode (busCode .write (BitVec.ofNat 8 (0x40 + 4 * k.val)) w) = .ok (.writePal k w) ∧
    exec (.writePal k w) s = .next s

/-- R269, R40: reads at the reserved offsets return 0 and have no effect, writes there have no effect. -/
def Obligations.ReservedAccessesReadZero : Prop :=
  ∀ (s : State) (w : Word) (off : BitVec 8), off.toNat % 4 = 0 →
    (0x10 ≤ off.toNat → off.toNat ≤ 0x3C →
      decode (busCode .read off w) = .ok (.reservedLo .read off w) ∧
      decode (busCode .write off w) = .ok (.reservedLo .write off w) ∧
      exec (.reservedLo .read off w) s = .next { s with rdata := 0 } ∧
      exec (.reservedLo .write off w) s = .next s) ∧
    (0x80 ≤ off.toNat →
      decode (busCode .read off w) = .ok (.reservedHi .read off w) ∧
      decode (busCode .write off w) = .ok (.reservedHi .write off w) ∧
      exec (.reservedHi .read off w) s = .next { s with rdata := 0 } ∧
      exec (.reservedHi .write off w) s = .next s)

/-- R265, R36: a read of STATUS returns PHASE in bits 3:0, ERR in bits 7:4, CANCEL_REQ in bit 8, zeros above, and changes
nothing. -/
def Obligations.StatusReadReturnsItsFields : Prop :=
  ∀ (s : State) (d : Word), decode (busCode .read 0x04 d) = .ok .readStatus ∧
    ∃ w : Word, exec .readStatus s = .next { s with rdata := w } ∧
    w.extractLsb' 0 4 = s.seq.phase ∧ w.extractLsb' 4 4 = s.err.code ∧ w.getLsbD 8 = s.cancelReq ∧
    w.extractLsb' 9 23 = 0

/-- R267, R268: a PACING write keeps bits 15:0 and ignores the rest; a read returns PACING_MS zero-extended; each changes
nothing else. -/
def Obligations.PacingKeepsSixteenBits : Prop :=
  ∀ (s : State) (w : Word),
    decode (busCode .write 0x08 w) = .ok (.writePacing w) ∧ decode (busCode .read 0x08 w) = .ok .readPacing ∧
    (∃ ms : BitVec 16, exec (.writePacing w) s = .next { s with pacingMs := ms } ∧ ms.toNat = w.toNat % 65536) ∧
    (∃ v : Word, exec .readPacing s = .next { s with rdata := v } ∧ v.toNat = s.pacingMs.toNat)

/-- R241: PALWR writes the packed colour to the entry that IDX names, and to no other; an IDX of `PAL_ENTRIES` or more
changes nothing. Beside the palette only the converter's output may change: it is an observation of the model, and that
PALWR keeps it where IDX is out of range is the model's choice (assumption log 17). -/
def Obligations.PalwrWritesOneEntry : Prop :=
  ∀ (s : State) (w : Word), decode (busCode .write 0x0C w) = .ok (.palwr w) ∧
    ∃ pal conv, exec (.palwr w) s = .next { s with pal := pal, convOut := conv } ∧
      (s.par.palEntries ≤ w.toNat / 2 ^ 24 → pal = s.pal ∧ conv = s.convOut) ∧
      pal.length = s.pal.length ∧
      (∀ i, i ≠ w.toNat / 2 ^ 24 → pal[i]? = s.pal[i]?) ∧
      (s.Inv → w.toNat / 2 ^ 24 < s.par.palEntries →
        pal[w.toNat / 2 ^ 24]? = some (convert ((w >>> 16) &&& 0xFF) ((w >>> 8) &&& 0xFF) (w &&& 0xFF)))

/-- R242: a read of a palette entry returns it and changes nothing. In an instance of fewer than 16 entries the offsets
that no entry stands behind read 0: the model's choice (assumption log 23). -/
def Obligations.PaletteReadReturnsEntry : Prop :=
  ∀ (s : State) (d : Word) (k : Fin 16),
    decode (busCode .read (BitVec.ofNat 8 (0x40 + 4 * k.val)) d) = .ok (.readPal k) ∧
    (∀ w, s.pal[k.val]? = some w → exec (.readPal k) s = .next { s with rdata := w }) ∧
    (s.pal.length ≤ k.val → exec (.readPal k) s = .next { s with rdata := 0 })

/-- R240, R244: CONVERT puts the low six bits of each channel at 23:18, 15:10 and 7:2, and zeros elsewhere. That the
result is kept in `convOut`, and that CONVERT changes nothing else, is the model's choice (assumption log 17). -/
def Obligations.ConvertPacksThreeLanes : Prop :=
  ∀ (s : State) (r g b : Word), ∃ c : Word, exec (.convert r g b) s = .next { s with convOut := c } ∧
    c.extractLsb' 18 6 = r.extractLsb' 0 6 ∧ c.extractLsb' 10 6 = g.extractLsb' 0 6 ∧
    c.extractLsb' 2 6 = b.extractLsb' 0 6 ∧ laneWord c

/-- R240, corner cases: only the low six bits of a channel count, and on inputs below 0x40 the function is injective. -/
def Obligations.ConvertIsInjectiveOnSixBits : Prop :=
  (∀ r g b : Word, convert r g b = convert (r &&& 0x3F) (g &&& 0x3F) (b &&& 0x3F)) ∧
  (∀ r g b r' g' b' : Word, r.toNat < 64 → g.toNat < 64 → b.toNat < 64 → r'.toNat < 64 → g'.toNat < 64 → b'.toNat < 64 →
    convert r g b = convert r' g' b' → r = r' ∧ g = g' ∧ b = b')

/-- R67, R260: an access that the interface does not admit (both directions at once, narrower than a word, or at an
offset that is no multiple of 4) is refused, as an instruction and in the cycle that makes it. That the cycle is refused
with `rst` = 1 too is the model's choice (assumption log 13). -/
def Obligations.RefusedAccessStopsTheRun : Prop :=
  (∀ (a : BusAccess) (s : State), exec (.refusedAccess a) s = .refused .accessNotAdmitted) ∧
  (∀ s : State, (∀ c ∈ s.pins.stores, c.1 < s.par.fbBytes) →
    (s.pins.bus.wr = true ∧ s.pins.bus.rd = true ∨
      (s.pins.bus.wr = true ∨ s.pins.bus.rd = true) ∧
        (s.pins.bus.narrow = true ∨ s.pins.bus.addr.toNat % 4 ≠ 0)) →
    step s = .refused .accessNotAdmitted)

/-! ### Frames -/

/-- What the sequencer's instructions leave unchanged when they answer a next state: the host's registers CANCEL_REQ,
PACING_MS and PAL, every byte of the Pixel Buffer, the parameters (R71, R72, R77, R243). -/
def Obligations.SequencerLeavesHostSide : Prop :=
  ∀ (i : Instr) (s t : State), i.ofSequencer = true → exec i s = .next t →
    s.HostSideSame t ∧ (∀ a, t.fbRead a = s.fbRead a) ∧ t.par.initTable = s.par.initTable

/-- What the host's instructions and CONVERT leave unchanged when they answer a next state: for all but START, the whole
engine, the transaction in progress, ERR and every byte of the Pixel Buffer (R154, R241, R262, R266 to R269). -/
def Obligations.HostOperationsLeaveEngine : Prop :=
  ∀ (i : Instr) (s t : State), i.ofSequencer = false → (∀ w, i ≠ .start w) → exec i s = .next t →
    s.EngineSame t ∧ (∀ a, t.fbRead a = s.fbRead a) ∧
    ((∀ w, i ≠ .stop w) → t.cancelReq = s.cancelReq) ∧ ((∀ w, i ≠ .writePacing w) → t.pacingMs = s.pacingMs) ∧
    ((∀ w, i ≠ .palwr w) → t.pal = s.pal)

/-! ### The whole machine -/

/-- The invariant holds right after block reset, for all parameters in their ranges, and so for `State.reset`. -/
def Obligations.InvariantAtReset : Prop :=
  (∀ p : Params, p.wf = true → (State.resetWith p).Inv) ∧ State.reset.Inv

/-- Every step keeps the invariant, from every state that has it, whatever the environment does. -/
def Obligations.EveryStepKeepsInvariant : Prop :=
  ∀ s t : State, s.Inv → step s = .next t → t.Inv

/-- R70, R131, R204: from every state with the invariant, an environment that keeps its duties (R270) never stops the
machine: every step answers a next state. -/
def Obligations.DutifulStepsGoOn : Prop :=
  ∀ s : State, s.Inv → Pins.dutiful s.pins s.par.fbBytes → ∃ t, step s = .next t

/-- R293, R297: without block reset a terminal state stays, sends nothing, and keeps ERR, DC and the log. -/
def Obligations.TerminalStatesHold : Prop :=
  ∀ s t : State, s.seq.terminal = true → s.pins.rst = false → step s = .next t →
    t.seq = s.seq ∧ t.err = s.err ∧ t.dc = s.dc ∧ t.log = s.log ∧ t.sent = s.sent ∧
    t.txPort = { valid := false, data := 0, last := false } ∧ t.fbAddr = 0

/-- R31, R292, R297: ERR changes only on entry to a failed state, and keeps the first code. -/
def Obligations.ErrorCodeIsSetOnce : Prop :=
  ∀ s t : State, s.Inv → s.pins.rst = false → step s = .next t →
    (s.err ≠ .none → t.err = s.err) ∧
    (t.err ≠ s.err → s.seq.terminal = false ∧ (t.seq = .initFailed ∨ t.seq = .rlFailed))

/-- R32, R76, R262: CANCEL_REQ is set by a write of CTRL with bit 1 and by nothing else, and is never cleared but by
block reset. -/
def Obligations.CancellationIsSticky : Prop :=
  ∀ s t : State, s.pins.rst = false → step s = .next t →
    t.cancelReq = (s.cancelReq ||
      (s.pins.bus.wr && decide (s.pins.bus.addr = 0x00) && s.pins.bus.wdata.getLsbD 1))

/-- R30, R153: without block reset `dc` changes only in a TX_SETUP cycle, to the mode of the state's transaction. -/
def Obligations.ModeSelectChangesOnlyInSetup : Prop :=
  ∀ s t : State, s.pins.rst = false → step s = .next t → t.dc ≠ s.dc →
    s.txs = .setup ∧ txMode s.seq = some t.dc

/-- R154, R79, R208: outside `S_IDLE` the host's access of a cycle has no influence on the engine in that cycle. -/
def Obligations.HostAccessDoesNotDisturbEngine : Prop :=
  ∀ (s t u : State) (p : Pins) (rest : List Pins) (a b : BusAccess), s.seq ≠ .idle →
    step { s with inputs := { p with bus := a } :: rest } = .next t →
    step { s with inputs := { p with bus := b } :: rest } = .next u → t.EngineSame u

/-- R243, in part: the palette's contents have no influence on the engine, on the transmitted bytes or on the log, in any
number of steps under the same inputs. -/
def Obligations.PaletteDoesNotReachTheTransport : Prop :=
  ∀ (k : Nat) (s t u : State) (pal : List Word),
    core.run k s = .next t → core.run k { s with pal := pal } = .next u →
    t.EngineSame u ∧ u.cancelReq = t.cancelReq ∧ u.pacingMs = t.pacingMs

/-- R77, R7: no step changes the parameters, the init table among them. -/
def Obligations.InitTableNeverChanges : Prop :=
  ∀ (k : Nat) (s t : State), core.run k s = .next t → t.par = s.par

/-- R72, R71: a step changes the Pixel Buffer by the writer's stores of that cycle and by nothing else. -/
def Obligations.OnlyTheWriterChangesTheBuffer : Prop :=
  ∀ s t : State, step s = .next t → t.fb = Memory.writeAll s.fb s.pins.stores

/-- R64, R71: after the stores of a cycle an offset of the Pixel Buffer holds the byte last stored there, and every
other offset what it held before. -/
def Obligations.BufferReadsTheLastStore : Prop :=
  ∀ (m : Memory) (stores : List (Nat × Byte)) (y : Nat),
    Memory.read? (Memory.writeAll m stores) y =
      match stores.reverse.find? (fun c => c.1 == y) with
      | some c => some c.2
      | none => Memory.read? m y

/-- In canonical form, buffers that hold the same stored bytes are the same data. -/
def Obligations.EqualBuffersAreEqualData : Prop :=
  ∀ m n : Memory, Memory.wf m = true → Memory.wf n = true → (∀ x, Memory.read? m x = Memory.read? n x) → m = n

/-- R23, R36, 95_test_vectors.md L2.8: PHASE 5 is read with bit 8 set only; ERR is not 0 exactly with PHASE 6 or 7; PHASE
7 has ERR 1; PHASE is at most 7. -/
def Obligations.StatusValuesThatOccur : Prop :=
  ∀ s : State, s.Inv →
    (s.seq.phase = 5 → s.statusWord = 0x105) ∧
    (s.err.code ≠ 0 ↔ s.seq.phase = 6 ∨ s.seq.phase = 7) ∧
    (s.seq.phase = 7 → s.err.code = 1) ∧ s.seq.phase.toNat ≤ 7 ∧ s.seq.code.toNat ≤ 16

/-- R42, R61, R151: outside TX_STREAM of a transmitting state the transport port is idle, and `fb_addr` is 0 but in the
framebuffer reader's stream, where it is TX_IDX, which fits the `FB_AW` bits of the address (R5). -/
def Obligations.OutputsIdleOutsideTheStream : Prop :=
  ∀ s : State,
    (s.txs ≠ .stream ∨ txMode s.seq = none → s.txPort = { valid := false, data := 0, last := false }) ∧
    (s.txs ≠ .stream ∨ s.seq ≠ .rlPixTx → s.fbAddr = 0) ∧
    (s.Inv → s.txs = .stream → s.seq = .rlPixTx → s.fbAddr.toNat = s.txIdx)
end

