-- ==== Sys2Proof/Laws/State.lean ====
section
/-! SUPPORT. One lemma per field per shared update of the state, each true by unfolding, so that no later proof unfolds a record update. -/

namespace Sys2Proof.Laws

open Sys2Proof.Machine

variable (s : State)

@[simp] theorem goTo_par (q : Seq) : (goTo q s).par = s.par := rfl
@[simp] theorem goTo_seq (q : Seq) : (goTo q s).seq = q := rfl
@[simp] theorem goTo_txs (q : Seq) : (goTo q s).txs = s.txs := rfl
@[simp] theorem goTo_txIdx (q : Seq) : (goTo q s).txIdx = s.txIdx := rfl
@[simp] theorem goTo_cursor (q : Seq) : (goTo q s).cursor = s.cursor := rfl
@[simp] theorem goTo_frmOpc (q : Seq) : (goTo q s).frmOpc = s.frmOpc := rfl
@[simp] theorem goTo_frmLen (q : Seq) : (goTo q s).frmLen = s.frmLen := rfl
@[simp] theorem goTo_frmBase (q : Seq) : (goTo q s).frmBase = s.frmBase := rfl
@[simp] theorem goTo_pendErr (q : Seq) : (goTo q s).pendErr = s.pendErr := rfl
@[simp] theorem goTo_msLeft (q : Seq) : (goTo q s).msLeft = s.msLeft := rfl
@[simp] theorem goTo_pre (q : Seq) : (goTo q s).pre = s.pre := rfl
@[simp] theorem goTo_dc (q : Seq) : (goTo q s).dc = s.dc := rfl
@[simp] theorem goTo_err (q : Seq) : (goTo q s).err = s.err := rfl
@[simp] theorem goTo_cancelReq (q : Seq) : (goTo q s).cancelReq = s.cancelReq := rfl
@[simp] theorem goTo_pacingMs (q : Seq) : (goTo q s).pacingMs = s.pacingMs := rfl
@[simp] theorem goTo_pal (q : Seq) : (goTo q s).pal = s.pal := rfl
@[simp] theorem goTo_fb (q : Seq) : (goTo q s).fb = s.fb := rfl
@[simp] theorem goTo_rdata (q : Seq) : (goTo q s).rdata = s.rdata := rfl
@[simp] theorem goTo_convOut (q : Seq) : (goTo q s).convOut = s.convOut := rfl
@[simp] theorem goTo_sent (q : Seq) : (goTo q s).sent = s.sent := rfl
@[simp] theorem goTo_log (q : Seq) : (goTo q s).log = s.log := rfl
@[simp] theorem goTo_inputs (q : Seq) : (goTo q s).inputs = s.inputs := rfl
@[simp] theorem goTo_cycle (q : Seq) : (goTo q s).cycle = s.cycle := rfl

@[simp] theorem goTx_par (q : Seq) : (goTx q s).par = s.par := rfl
@[simp] theorem goTx_seq (q : Seq) : (goTx q s).seq = q := rfl
@[simp] theorem goTx_txs (q : Seq) : (goTx q s).txs = .setup := rfl
@[simp] theorem goTx_txIdx (q : Seq) : (goTx q s).txIdx = 0 := rfl
@[simp] theorem goTx_cursor (q : Seq) : (goTx q s).cursor = s.cursor := rfl
@[simp] theorem goTx_frmOpc (q : Seq) : (goTx q s).frmOpc = s.frmOpc := rfl
@[simp] theorem goTx_frmLen (q : Seq) : (goTx q s).frmLen = s.frmLen := rfl
@[simp] theorem goTx_frmBase (q : Seq) : (goTx q s).frmBase = s.frmBase := rfl
@[simp] theorem goTx_pendErr (q : Seq) : (goTx q s).pendErr = s.pendErr := rfl
@[simp] theorem goTx_msLeft (q : Seq) : (goTx q s).msLeft = s.msLeft := rfl
@[simp] theorem goTx_pre (q : Seq) : (goTx q s).pre = s.pre := rfl
@[simp] theorem goTx_dc (q : Seq) : (goTx q s).dc = s.dc := rfl
@[simp] theorem goTx_err (q : Seq) : (goTx q s).err = s.err := rfl
@[simp] theorem goTx_cancelReq (q : Seq) : (goTx q s).cancelReq = s.cancelReq := rfl
@[simp] theorem goTx_pacingMs (q : Seq) : (goTx q s).pacingMs = s.pacingMs := rfl
@[simp] theorem goTx_pal (q : Seq) : (goTx q s).pal = s.pal := rfl
@[simp] theorem goTx_fb (q : Seq) : (goTx q s).fb = s.fb := rfl
@[simp] theorem goTx_rdata (q : Seq) : (goTx q s).rdata = s.rdata := rfl
@[simp] theorem goTx_convOut (q : Seq) : (goTx q s).convOut = s.convOut := rfl
@[simp] theorem goTx_sent (q : Seq) : (goTx q s).sent = s.sent := rfl
@[simp] theorem goTx_log (q : Seq) : (goTx q s).log = s.log := rfl
@[simp] theorem goTx_inputs (q : Seq) : (goTx q s).inputs = s.inputs := rfl
@[simp] theorem goTx_cycle (q : Seq) : (goTx q s).cycle = s.cycle := rfl

@[simp] theorem goWait_par (q : Seq) (n : BitVec 16) : (goWait q n s).par = s.par := rfl
@[simp] theorem goWait_seq (q : Seq) (n : BitVec 16) : (goWait q n s).seq = q := rfl
@[simp] theorem goWait_txs (q : Seq) (n : BitVec 16) : (goWait q n s).txs = s.txs := rfl
@[simp] theorem goWait_txIdx (q : Seq) (n : BitVec 16) : (goWait q n s).txIdx = s.txIdx := rfl
@[simp] theorem goWait_cursor (q : Seq) (n : BitVec 16) : (goWait q n s).cursor = s.cursor := rfl
@[simp] theorem goWait_frmOpc (q : Seq) (n : BitVec 16) : (goWait q n s).frmOpc = s.frmOpc := rfl
@[simp] theorem goWait_frmLen (q : Seq) (n : BitVec 16) : (goWait q n s).frmLen = s.frmLen := rfl
@[simp] theorem goWait_frmBase (q : Seq) (n : BitVec 16) : (goWait q n s).frmBase = s.frmBase := rfl
@[simp] theorem goWait_pendErr (q : Seq) (n : BitVec 16) : (goWait q n s).pendErr = s.pendErr := rfl
@[simp] theorem goWait_msLeft (q : Seq) (n : BitVec 16) : (goWait q n s).msLeft = n := rfl
@[simp] theorem goWait_pre (q : Seq) (n : BitVec 16) : (goWait q n s).pre = 0 := rfl
@[simp] theorem goWait_dc (q : Seq) (n : BitVec 16) : (goWait q n s).dc = s.dc := rfl
@[simp] theorem goWait_err (q : Seq) (n : BitVec 16) : (goWait q n s).err = s.err := rfl
@[simp] theorem goWait_cancelReq (q : Seq) (n : BitVec 16) : (goWait q n s).cancelReq = s.cancelReq := rfl
@[simp] theorem goWait_pacingMs (q : Seq) (n : BitVec 16) : (goWait q n s).pacingMs = s.pacingMs := rfl
@[simp] theorem goWait_pal (q : Seq) (n : BitVec 16) : (goWait q n s).pal = s.pal := rfl
@[simp] theorem goWait_fb (q : Seq) (n : BitVec 16) : (goWait q n s).fb = s.fb := rfl
@[simp] theorem goWait_rdata (q : Seq) (n : BitVec 16) : (goWait q n s).rdata = s.rdata := rfl
@[simp] theorem goWait_convOut (q : Seq) (n : BitVec 16) : (goWait q n s).convOut = s.convOut := rfl
@[simp] theorem goWait_sent (q : Seq) (n : BitVec 16) : (goWait q n s).sent = s.sent := rfl
@[simp] theorem goWait_log (q : Seq) (n : BitVec 16) : (goWait q n s).log = s.log := rfl
@[simp] theorem goWait_inputs (q : Seq) (n : BitVec 16) : (goWait q n s).inputs = s.inputs := rfl
@[simp] theorem goWait_cycle (q : Seq) (n : BitVec 16) : (goWait q n s).cycle = s.cycle := rfl

@[simp] theorem raise_par (e : Err) : (raise e s).par = s.par := rfl
@[simp] theorem raise_seq (e : Err) : (raise e s).seq = if s.seq.bringUp then .initFailed else .rlFailed := rfl
@[simp] theorem raise_txs (e : Err) : (raise e s).txs = s.txs := rfl
@[simp] theorem raise_txIdx (e : Err) : (raise e s).txIdx = s.txIdx := rfl
@[simp] theorem raise_cursor (e : Err) : (raise e s).cursor = s.cursor := rfl
@[simp] theorem raise_frmOpc (e : Err) : (raise e s).frmOpc = s.frmOpc := rfl
@[simp] theorem raise_frmLen (e : Err) : (raise e s).frmLen = s.frmLen := rfl
@[simp] theorem raise_frmBase (e : Err) : (raise e s).frmBase = s.frmBase := rfl
@[simp] theorem raise_pendErr (e : Err) : (raise e s).pendErr = s.pendErr := rfl
@[simp] theorem raise_msLeft (e : Err) : (raise e s).msLeft = s.msLeft := rfl
@[simp] theorem raise_pre (e : Err) : (raise e s).pre = s.pre := rfl
@[simp] theorem raise_dc (e : Err) : (raise e s).dc = s.dc := rfl
@[simp] theorem raise_err (e : Err) : (raise e s).err = e := rfl
@[simp] theorem raise_cancelReq (e : Err) : (raise e s).cancelReq = s.cancelReq := rfl
@[simp] theorem raise_pacingMs (e : Err) : (raise e s).pacingMs = s.pacingMs := rfl
@[simp] theorem raise_pal (e : Err) : (raise e s).pal = s.pal := rfl
@[simp] theorem raise_fb (e : Err) : (raise e s).fb = s.fb := rfl
@[simp] theorem raise_rdata (e : Err) : (raise e s).rdata = s.rdata := rfl
@[simp] theorem raise_convOut (e : Err) : (raise e s).convOut = s.convOut := rfl
@[simp] theorem raise_sent (e : Err) : (raise e s).sent = s.sent := rfl
@[simp] theorem raise_log (e : Err) : (raise e s).log = s.log := rfl
@[simp] theorem raise_inputs (e : Err) : (raise e s).inputs = s.inputs := rfl
@[simp] theorem raise_cycle (e : Err) : (raise e s).cycle = s.cycle := rfl

@[simp] theorem complete_par (r : TxResult) : (complete r s).par = s.par := rfl
@[simp] theorem complete_seq (r : TxResult) : (complete r s).seq = s.seq := rfl
@[simp] theorem complete_txs (r : TxResult) : (complete r s).txs = s.txs := rfl
@[simp] theorem complete_txIdx (r : TxResult) : (complete r s).txIdx = s.txIdx := rfl
@[simp] theorem complete_cursor (r : TxResult) : (complete r s).cursor = s.cursor := rfl
@[simp] theorem complete_frmOpc (r : TxResult) : (complete r s).frmOpc = s.frmOpc := rfl
@[simp] theorem complete_frmLen (r : TxResult) : (complete r s).frmLen = s.frmLen := rfl
@[simp] theorem complete_frmBase (r : TxResult) : (complete r s).frmBase = s.frmBase := rfl
@[simp] theorem complete_pendErr (r : TxResult) : (complete r s).pendErr = s.pendErr := rfl
@[simp] theorem complete_msLeft (r : TxResult) : (complete r s).msLeft = s.msLeft := rfl
@[simp] theorem complete_pre (r : TxResult) : (complete r s).pre = s.pre := rfl
@[simp] theorem complete_dc (r : TxResult) : (complete r s).dc = s.dc := rfl
@[simp] theorem complete_err (r : TxResult) : (complete r s).err = s.err := rfl
@[simp] theorem complete_cancelReq (r : TxResult) : (complete r s).cancelReq = s.cancelReq := rfl
@[simp] theorem complete_pacingMs (r : TxResult) : (complete r s).pacingMs = s.pacingMs := rfl
@[simp] theorem complete_pal (r : TxResult) : (complete r s).pal = s.pal := rfl
@[simp] theorem complete_fb (r : TxResult) : (complete r s).fb = s.fb := rfl
@[simp] theorem complete_rdata (r : TxResult) : (complete r s).rdata = s.rdata := rfl
@[simp] theorem complete_convOut (r : TxResult) : (complete r s).convOut = s.convOut := rfl
@[simp] theorem complete_sent (r : TxResult) : (complete r s).sent = [] := rfl
@[simp] theorem complete_log (r : TxResult) : (complete r s).log = s.log ++ [{ mode := s.dc, bytes := s.sent, result := r }] := rfl
@[simp] theorem complete_inputs (r : TxResult) : (complete r s).inputs = s.inputs := rfl
@[simp] theorem complete_cycle (r : TxResult) : (complete r s).cycle = s.cycle := rfl

@[simp] theorem respond_par (w : Word) : (respond w s).par = s.par := rfl
@[simp] theorem respond_seq (w : Word) : (respond w s).seq = s.seq := rfl
@[simp] theorem respond_txs (w : Word) : (respond w s).txs = s.txs := rfl
@[simp] theorem respond_txIdx (w : Word) : (respond w s).txIdx = s.txIdx := rfl
@[simp] theorem respond_cursor (w : Word) : (respond w s).cursor = s.cursor := rfl
@[simp] theorem respond_frmOpc (w : Word) : (respond w s).frmOpc = s.frmOpc := rfl
@[simp] theorem respond_frmLen (w : Word) : (respond w s).frmLen = s.frmLen := rfl
@[simp] theorem respond_frmBase (w : Word) : (respond w s).frmBase = s.frmBase := rfl
@[simp] theorem respond_pendErr (w : Word) : (respond w s).pendErr = s.pendErr := rfl
@[simp] theorem respond_msLeft (w : Word) : (respond w s).msLeft = s.msLeft := rfl
@[simp] theorem respond_pre (w : Word) : (respond w s).pre = s.pre := rfl
@[simp] theorem respond_dc (w : Word) : (respond w s).dc = s.dc := rfl
@[simp] theorem respond_err (w : Word) : (respond w s).err = s.err := rfl
@[simp] theorem respond_cancelReq (w : Word) : (respond w s).cancelReq = s.cancelReq := rfl
@[simp] theorem respond_pacingMs (w : Word) : (respond w s).pacingMs = s.pacingMs := rfl
@[simp] theorem respond_pal (w : Word) : (respond w s).pal = s.pal := rfl
@[simp] theorem respond_fb (w : Word) : (respond w s).fb = s.fb := rfl
@[simp] theorem respond_rdata (w : Word) : (respond w s).rdata = w := rfl
@[simp] theorem respond_convOut (w : Word) : (respond w s).convOut = s.convOut := rfl
@[simp] theorem respond_sent (w : Word) : (respond w s).sent = s.sent := rfl
@[simp] theorem respond_log (w : Word) : (respond w s).log = s.log := rfl
@[simp] theorem respond_inputs (w : Word) : (respond w s).inputs = s.inputs := rfl
@[simp] theorem respond_cycle (w : Word) : (respond w s).cycle = s.cycle := rfl

@[simp] theorem driveConvert_par (r g b : Word) : (driveConvert r g b s).par = s.par := rfl
@[simp] theorem driveConvert_seq (r g b : Word) : (driveConvert r g b s).seq = s.seq := rfl
@[simp] theorem driveConvert_txs (r g b : Word) : (driveConvert r g b s).txs = s.txs := rfl
@[simp] theorem driveConvert_txIdx (r g b : Word) : (driveConvert r g b s).txIdx = s.txIdx := rfl
@[simp] theorem driveConvert_cursor (r g b : Word) : (driveConvert r g b s).cursor = s.cursor := rfl
@[simp] theorem driveConvert_frmOpc (r g b : Word) : (driveConvert r g b s).frmOpc = s.frmOpc := rfl
@[simp] theorem driveConvert_frmLen (r g b : Word) : (driveConvert r g b s).frmLen = s.frmLen := rfl
@[simp] theorem driveConvert_frmBase (r g b : Word) : (driveConvert r g b s).frmBase = s.frmBase := rfl
@[simp] theorem driveConvert_pendErr (r g b : Word) : (driveConvert r g b s).pendErr = s.pendErr := rfl
@[simp] theorem driveConvert_msLeft (r g b : Word) : (driveConvert r g b s).msLeft = s.msLeft := rfl
@[simp] theorem driveConvert_pre (r g b : Word) : (driveConvert r g b s).pre = s.pre := rfl
@[simp] theorem driveConvert_dc (r g b : Word) : (driveConvert r g b s).dc = s.dc := rfl
@[simp] theorem driveConvert_err (r g b : Word) : (driveConvert r g b s).err = s.err := rfl
@[simp] theorem driveConvert_cancelReq (r g b : Word) : (driveConvert r g b s).cancelReq = s.cancelReq := rfl
@[simp] theorem driveConvert_pacingMs (r g b : Word) : (driveConvert r g b s).pacingMs = s.pacingMs := rfl
@[simp] theorem driveConvert_pal (r g b : Word) : (driveConvert r g b s).pal = s.pal := rfl
@[simp] theorem driveConvert_fb (r g b : Word) : (driveConvert r g b s).fb = s.fb := rfl
@[simp] theorem driveConvert_rdata (r g b : Word) : (driveConvert r g b s).rdata = s.rdata := rfl
@[simp] theorem driveConvert_convOut (r g b : Word) : (driveConvert r g b s).convOut = convert r g b := rfl
@[simp] theorem driveConvert_sent (r g b : Word) : (driveConvert r g b s).sent = s.sent := rfl
@[simp] theorem driveConvert_log (r g b : Word) : (driveConvert r g b s).log = s.log := rfl
@[simp] theorem driveConvert_inputs (r g b : Word) : (driveConvert r g b s).inputs = s.inputs := rfl
@[simp] theorem driveConvert_cycle (r g b : Word) : (driveConvert r g b s).cycle = s.cycle := rfl

@[simp] theorem writePalette_par (i : Nat) (w : Word) : (writePalette i w s).par = s.par := rfl
@[simp] theorem writePalette_seq (i : Nat) (w : Word) : (writePalette i w s).seq = s.seq := rfl
@[simp] theorem writePalette_txs (i : Nat) (w : Word) : (writePalette i w s).txs = s.txs := rfl
@[simp] theorem writePalette_txIdx (i : Nat) (w : Word) : (writePalette i w s).txIdx = s.txIdx := rfl
@[simp] theorem writePalette_cursor (i : Nat) (w : Word) : (writePalette i w s).cursor = s.cursor := rfl
@[simp] theorem writePalette_frmOpc (i : Nat) (w : Word) : (writePalette i w s).frmOpc = s.frmOpc := rfl
@[simp] theorem writePalette_frmLen (i : Nat) (w : Word) : (writePalette i w s).frmLen = s.frmLen := rfl
@[simp] theorem writePalette_frmBase (i : Nat) (w : Word) : (writePalette i w s).frmBase = s.frmBase := rfl
@[simp] theorem writePalette_pendErr (i : Nat) (w : Word) : (writePalette i w s).pendErr = s.pendErr := rfl
@[simp] theorem writePalette_msLeft (i : Nat) (w : Word) : (writePalette i w s).msLeft = s.msLeft := rfl
@[simp] theorem writePalette_pre (i : Nat) (w : Word) : (writePalette i w s).pre = s.pre := rfl
@[simp] theorem writePalette_dc (i : Nat) (w : Word) : (writePalette i w s).dc = s.dc := rfl
@[simp] theorem writePalette_err (i : Nat) (w : Word) : (writePalette i w s).err = s.err := rfl
@[simp] theorem writePalette_cancelReq (i : Nat) (w : Word) : (writePalette i w s).cancelReq = s.cancelReq := rfl
@[simp] theorem writePalette_pacingMs (i : Nat) (w : Word) : (writePalette i w s).pacingMs = s.pacingMs := rfl
@[simp] theorem writePalette_pal (i : Nat) (w : Word) : (writePalette i w s).pal = s.pal.set i w := rfl
@[simp] theorem writePalette_fb (i : Nat) (w : Word) : (writePalette i w s).fb = s.fb := rfl
@[simp] theorem writePalette_rdata (i : Nat) (w : Word) : (writePalette i w s).rdata = s.rdata := rfl
@[simp] theorem writePalette_convOut (i : Nat) (w : Word) : (writePalette i w s).convOut = s.convOut := rfl
@[simp] theorem writePalette_sent (i : Nat) (w : Word) : (writePalette i w s).sent = s.sent := rfl
@[simp] theorem writePalette_log (i : Nat) (w : Word) : (writePalette i w s).log = s.log := rfl
@[simp] theorem writePalette_inputs (i : Nat) (w : Word) : (writePalette i w s).inputs = s.inputs := rfl
@[simp] theorem writePalette_cycle (i : Nat) (w : Word) : (writePalette i w s).cycle = s.cycle := rfl

@[simp] theorem requestCancel_par : (requestCancel s).par = s.par := rfl
@[simp] theorem requestCancel_seq : (requestCancel s).seq = s.seq := rfl
@[simp] theorem requestCancel_txs : (requestCancel s).txs = s.txs := rfl
@[simp] theorem requestCancel_txIdx : (requestCancel s).txIdx = s.txIdx := rfl
@[simp] theorem requestCancel_cursor : (requestCancel s).cursor = s.cursor := rfl
@[simp] theorem requestCancel_frmOpc : (requestCancel s).frmOpc = s.frmOpc := rfl
@[simp] theorem requestCancel_frmLen : (requestCancel s).frmLen = s.frmLen := rfl
@[simp] theorem requestCancel_frmBase : (requestCancel s).frmBase = s.frmBase := rfl
@[simp] theorem requestCancel_pendErr : (requestCancel s).pendErr = s.pendErr := rfl
@[simp] theorem requestCancel_msLeft : (requestCancel s).msLeft = s.msLeft := rfl
@[simp] theorem requestCancel_pre : (requestCancel s).pre = s.pre := rfl
@[simp] theorem requestCancel_dc : (requestCancel s).dc = s.dc := rfl
@[simp] theorem requestCancel_err : (requestCancel s).err = s.err := rfl
@[simp] theorem requestCancel_cancelReq : (requestCancel s).cancelReq = true := rfl
@[simp] theorem requestCancel_pacingMs : (requestCancel s).pacingMs = s.pacingMs := rfl
@[simp] theorem requestCancel_pal : (requestCancel s).pal = s.pal := rfl
@[simp] theorem requestCancel_fb : (requestCancel s).fb = s.fb := rfl
@[simp] theorem requestCancel_rdata : (requestCancel s).rdata = s.rdata := rfl
@[simp] theorem requestCancel_convOut : (requestCancel s).convOut = s.convOut := rfl
@[simp] theorem requestCancel_sent : (requestCancel s).sent = s.sent := rfl
@[simp] theorem requestCancel_log : (requestCancel s).log = s.log := rfl
@[simp] theorem requestCancel_inputs : (requestCancel s).inputs = s.inputs := rfl
@[simp] theorem requestCancel_cycle : (requestCancel s).cycle = s.cycle := rfl

@[simp] theorem clockTick_par : (clockTick s).par = s.par := rfl
@[simp] theorem clockTick_seq : (clockTick s).seq = s.seq := rfl
@[simp] theorem clockTick_txs : (clockTick s).txs = s.txs := rfl
@[simp] theorem clockTick_txIdx : (clockTick s).txIdx = s.txIdx := rfl
@[simp] theorem clockTick_cursor : (clockTick s).cursor = s.cursor := rfl
@[simp] theorem clockTick_frmOpc : (clockTick s).frmOpc = s.frmOpc := rfl
@[simp] theorem clockTick_frmLen : (clockTick s).frmLen = s.frmLen := rfl
@[simp] theorem clockTick_frmBase : (clockTick s).frmBase = s.frmBase := rfl
@[simp] theorem clockTick_pendErr : (clockTick s).pendErr = s.pendErr := rfl
@[simp] theorem clockTick_msLeft : (clockTick s).msLeft = s.msLeft := rfl
@[simp] theorem clockTick_pre : (clockTick s).pre = s.pre := rfl
@[simp] theorem clockTick_dc : (clockTick s).dc = s.dc := rfl
@[simp] theorem clockTick_err : (clockTick s).err = s.err := rfl
@[simp] theorem clockTick_cancelReq : (clockTick s).cancelReq = s.cancelReq := rfl
@[simp] theorem clockTick_pacingMs : (clockTick s).pacingMs = s.pacingMs := rfl
@[simp] theorem clockTick_pal : (clockTick s).pal = s.pal := rfl
@[simp] theorem clockTick_fb : (clockTick s).fb = s.fb := rfl
@[simp] theorem clockTick_rdata : (clockTick s).rdata = s.rdata := rfl
@[simp] theorem clockTick_convOut : (clockTick s).convOut = s.convOut := rfl
@[simp] theorem clockTick_sent : (clockTick s).sent = s.sent := rfl
@[simp] theorem clockTick_log : (clockTick s).log = s.log := rfl
@[simp] theorem clockTick_inputs : (clockTick s).inputs = s.inputs.tail := rfl
@[simp] theorem clockTick_cycle : (clockTick s).cycle = s.cycle + 1 := rfl

@[simp] theorem opened_par : (s.opened).par = s.par := rfl
@[simp] theorem opened_seq : (s.opened).seq = s.seq := rfl
@[simp] theorem opened_txs : (s.opened).txs = s.txs := rfl
@[simp] theorem opened_txIdx : (s.opened).txIdx = s.txIdx := rfl
@[simp] theorem opened_cursor : (s.opened).cursor = s.cursor := rfl
@[simp] theorem opened_frmOpc : (s.opened).frmOpc = s.frmOpc := rfl
@[simp] theorem opened_frmLen : (s.opened).frmLen = s.frmLen := rfl
@[simp] theorem opened_frmBase : (s.opened).frmBase = s.frmBase := rfl
@[simp] theorem opened_pendErr : (s.opened).pendErr = s.pendErr := rfl
@[simp] theorem opened_msLeft : (s.opened).msLeft = s.msLeft := rfl
@[simp] theorem opened_pre : (s.opened).pre = s.pre := rfl
@[simp] theorem opened_dc : (s.opened).dc = s.dc := rfl
@[simp] theorem opened_err : (s.opened).err = s.err := rfl
@[simp] theorem opened_cancelReq : (s.opened).cancelReq = s.cancelReq := rfl
@[simp] theorem opened_pacingMs : (s.opened).pacingMs = s.pacingMs := rfl
@[simp] theorem opened_pal : (s.opened).pal = s.pal := rfl
@[simp] theorem opened_fb : (s.opened).fb = Memory.writeAll s.fb s.pins.stores := rfl
@[simp] theorem opened_rdata : (s.opened).rdata = 0 := rfl
@[simp] theorem opened_convOut : (s.opened).convOut = s.convOut := rfl
@[simp] theorem opened_sent : (s.opened).sent = s.sent := rfl
@[simp] theorem opened_log : (s.opened).log = s.log := rfl
@[simp] theorem opened_inputs : (s.opened).inputs = s.inputs := rfl
@[simp] theorem opened_cycle : (s.opened).cycle = s.cycle := rfl

@[simp] theorem blockReset_par : (blockReset s).par = s.par := rfl
@[simp] theorem blockReset_seq : (blockReset s).seq = .idle := rfl
@[simp] theorem blockReset_txs : (blockReset s).txs = .setup := rfl
@[simp] theorem blockReset_txIdx : (blockReset s).txIdx = 0 := rfl
@[simp] theorem blockReset_cursor : (blockReset s).cursor = 0 := rfl
@[simp] theorem blockReset_frmOpc : (blockReset s).frmOpc = 0 := rfl
@[simp] theorem blockReset_frmLen : (blockReset s).frmLen = 0 := rfl
@[simp] theorem blockReset_frmBase : (blockReset s).frmBase = 0 := rfl
@[simp] theorem blockReset_pendErr : (blockReset s).pendErr = false := rfl
@[simp] theorem blockReset_msLeft : (blockReset s).msLeft = 0 := rfl
@[simp] theorem blockReset_pre : (blockReset s).pre = 0 := rfl
@[simp] theorem blockReset_dc : (blockReset s).dc = .command := rfl
@[simp] theorem blockReset_err : (blockReset s).err = .none := rfl
@[simp] theorem blockReset_cancelReq : (blockReset s).cancelReq = false := rfl
@[simp] theorem blockReset_pacingMs : (blockReset s).pacingMs = s.par.pacingResetMs := rfl
@[simp] theorem blockReset_pal : (blockReset s).pal = List.replicate s.par.palEntries 0 := rfl
@[simp] theorem blockReset_fb : (blockReset s).fb = s.fb := rfl
@[simp] theorem blockReset_rdata : (blockReset s).rdata = s.rdata := rfl
@[simp] theorem blockReset_convOut : (blockReset s).convOut = 0 := rfl
@[simp] theorem blockReset_sent : (blockReset s).sent = [] := rfl
@[simp] theorem blockReset_log : (blockReset s).log = s.log := rfl
@[simp] theorem blockReset_inputs : (blockReset s).inputs = s.inputs := rfl
@[simp] theorem blockReset_cycle : (blockReset s).cycle = s.cycle := rfl

@[simp] theorem stored_par : s.stored.par = s.par := rfl
@[simp] theorem stored_seq : s.stored.seq = s.seq := rfl
@[simp] theorem stored_txs : s.stored.txs = s.txs := rfl
@[simp] theorem stored_txIdx : s.stored.txIdx = s.txIdx := rfl
@[simp] theorem stored_cursor : s.stored.cursor = s.cursor := rfl
@[simp] theorem stored_frmOpc : s.stored.frmOpc = s.frmOpc := rfl
@[simp] theorem stored_frmLen : s.stored.frmLen = s.frmLen := rfl
@[simp] theorem stored_frmBase : s.stored.frmBase = s.frmBase := rfl
@[simp] theorem stored_pendErr : s.stored.pendErr = s.pendErr := rfl
@[simp] theorem stored_msLeft : s.stored.msLeft = s.msLeft := rfl
@[simp] theorem stored_pre : s.stored.pre = s.pre := rfl
@[simp] theorem stored_dc : s.stored.dc = s.dc := rfl
@[simp] theorem stored_err : s.stored.err = s.err := rfl
@[simp] theorem stored_cancelReq : s.stored.cancelReq = s.cancelReq := rfl
@[simp] theorem stored_pacingMs : s.stored.pacingMs = s.pacingMs := rfl
@[simp] theorem stored_pal : s.stored.pal = s.pal := rfl
@[simp] theorem stored_fb : s.stored.fb = Memory.writeAll s.fb s.pins.stores := rfl
@[simp] theorem stored_rdata : s.stored.rdata = s.rdata := rfl
@[simp] theorem stored_convOut : s.stored.convOut = s.convOut := rfl
@[simp] theorem stored_sent : s.stored.sent = s.sent := rfl
@[simp] theorem stored_log : s.stored.log = s.log := rfl
@[simp] theorem stored_inputs : s.stored.inputs = s.inputs := rfl
@[simp] theorem stored_cycle : s.stored.cycle = s.cycle := rfl

end Sys2Proof.Laws
end

