-- ==== Sys2Proof/Laws/Ops.lean ====
section
/-! SUPPORT. What each shared operation can do, said once: the provers cite these lemmas and do not unfold the operations. -/

namespace Sys2Proof.Laws

open Sys2Proof.Machine

/-- A chain answers a next state exactly where both links do. -/
theorem andThen_eq_next {o : Result} {k : State → Result} {t : State} :
    andThen o k = .next t ↔ ∃ s, o = .next s ∧ k s = .next t := by
  cases o <;> simp [andThen]

@[simp] theorem andThen_next (s : State) (k : State → Result) : andThen (.next s) k = k s := rfl
@[simp] theorem andThen_fault (f : Fault) (k : State → Result) : andThen (.fault f) k = .fault f := rfl
@[simp] theorem andThen_refused (r : Refusal) (k : State → Result) : andThen (.refused r) k = .refused r := rfl

/-- A cycle reads the same inputs as long as the clock has not moved. -/
theorem pins_congr {s t : State} (hi : t.inputs = s.inputs) (hc : t.cycle = s.cycle) : t.pins = s.pins := by
  simp [State.pins, hi, hc]

@[simp] theorem stored_pins (s : State) : s.stored.pins = s.pins := rfl
@[simp] theorem opened_pins (s : State) : s.opened.pins = s.pins := rfl
@[simp] theorem respond_pins (w : Word) (s : State) : (respond w s).pins = s.pins := rfl
@[simp] theorem complete_pins (r : TxResult) (s : State) : (complete r s).pins = s.pins := rfl
@[simp] theorem respond_opened (w : Word) (s : State) : respond w s.opened = respond w s.stored := rfl

/-- One cycle of a transaction, where it answers a next state (R151). -/
theorem sendCycle_cases {m : Mode} {len : Nat} {byteAt : Nat → Option Byte} {onOk onErr : State → State} {s t : State}
    (h : sendCycle m len byteAt onOk onErr s = .next t) :
    (s.txs = .setup ∧ t = { s with dc := m, txs := .stream, txIdx := 0, sent := [] }) ∨
    (s.txs = .stream ∧ s.pins.txReady = false ∧ t = s) ∨
    (∃ b, s.txs = .stream ∧ byteAt s.txIdx = some b ∧ s.txIdx + 1 = len ∧
      t = { s with txs := .wait, sent := s.sent ++ [b] }) ∨
    (∃ b, s.txs = .stream ∧ byteAt s.txIdx = some b ∧ s.txIdx + 1 ≠ len ∧
      t = { s with txIdx := s.txIdx + 1, sent := s.sent ++ [b] }) ∨
    (s.txs = .wait ∧ s.pins.rspValid = false ∧ t = s) ∨
    (s.txs = .wait ∧ s.pins.rspValid = true ∧ s.response = .ok ∧ t = onOk (complete .ok s)) ∨
    (s.txs = .wait ∧ s.pins.rspValid = true ∧ s.response = .err ∧ t = onErr (complete .err s)) := by
  unfold sendCycle at h
  split at h
  · next hs => cases h; exact .inl ⟨hs, rfl⟩
  · next hs =>
    split at h
    · cases h
    · next b hb =>
      split_ifs at h with h1 h2
      · cases h; exact .inr (.inr (.inl ⟨b, hs, hb, h2, rfl⟩))
      · cases h; exact .inr (.inr (.inr (.inl ⟨b, hs, hb, h2, rfl⟩)))
      · cases h; exact .inr (.inl ⟨hs, by simpa using h1, rfl⟩)
  · next hs =>
    split_ifs at h with h1
    · split at h
      · next hr => cases h; exact .inr (.inr (.inr (.inr (.inr (.inl ⟨hs, h1, hr, rfl⟩)))))
      · next hr => cases h; exact .inr (.inr (.inr (.inr (.inr (.inr ⟨hs, h1, hr, rfl⟩)))))
    · cases h; exact .inr (.inr (.inr (.inr (.inl ⟨hs, by simpa using h1, rfl⟩))))

/-- A transaction that has a byte at the index of its stream answers a next state (R151). -/
theorem sendCycle_next {m : Mode} {len : Nat} {byteAt : Nat → Option Byte} (onOk onErr : State → State) {s : State}
    (h : s.txs = .stream → (byteAt s.txIdx).isSome) :
    ∃ t, sendCycle m len byteAt onOk onErr s = .next t := by
  unfold sendCycle
  split
  · exact ⟨_, rfl⟩
  · next hs =>
    obtain ⟨b, hb⟩ := Option.isSome_iff_exists.mp (h hs)
    simp only [hb]
    split_ifs <;> exact ⟨_, rfl⟩
  · split_ifs
    · split <;> exact ⟨_, rfl⟩
    · exact ⟨_, rfl⟩

/-- One cycle of a delay (R211). -/
theorem waitCycle_cases (onEnd : State → State) (s : State) :
    (s.msLeft = 0 ∧ waitCycle onEnd s = onEnd s) ∨
    (s.msLeft ≠ 0 ∧ s.pre + 1 = s.par.cyclesPerMs ∧
      waitCycle onEnd s = { s with pre := 0, msLeft := s.msLeft - 1 }) ∨
    (s.msLeft ≠ 0 ∧ s.pre + 1 ≠ s.par.cyclesPerMs ∧ waitCycle onEnd s = { s with pre := s.pre + 1 }) := by
  unfold waitCycle
  split_ifs with h1 h2
  · exact .inl ⟨h1, rfl⟩
  · exact .inr (.inl ⟨h1, h2, rfl⟩)
  · exact .inr (.inr ⟨h1, h2, rfl⟩)

/-- The state a transition raises from decides where it ends (R292). -/
theorem raise_bringUp {e : Err} {s : State} (h : s.seq.bringUp = true) :
    raise e s = { s with err := e, seq := .initFailed } := by simp [raise, h]

theorem raise_loop {e : Err} {s : State} (h : s.seq.bringUp = false) :
    raise e s = { s with err := e, seq := .rlFailed } := by simp [raise, h]

/-- What the host's access of a cycle is (R99): none, an operation the interface admits, or a refused access. -/
theorem hostInstr_cases (s : State) :
    (s.pins.bus.present = false ∧ hostInstr s = none) ∨
    (s.pins.bus.present = true ∧ s.pins.bus.admitted = true ∧
      hostInstr s = some (decodeAccess s.pins.bus.dir s.pins.bus.addr s.pins.bus.wdata)) ∨
    (s.pins.bus.present = true ∧ s.pins.bus.admitted = false ∧ hostInstr s = some (.refusedAccess s.pins.bus)) := by
  unfold hostInstr
  simp only [decode, decodeBus]
  cases h1 : s.pins.bus.present <;> cases h2 : s.pins.bus.admitted <;> simp

/-- What the writer's move does (R71). -/
theorem writerMove_next {s : State} (h : ∀ c ∈ s.pins.stores, c.1 < s.par.fbBytes) :
    writerMove s = .next s.stored := by
  unfold writerMove
  rw [if_pos]
  simpa using h

theorem writerMove_cases {s t : State} (h : writerMove s = .next t) :
    (∀ c ∈ s.pins.stores, c.1 < s.par.fbBytes) ∧ t = s.stored := by
  unfold writerMove at h
  split_ifs at h with h1
  cases h
  exact ⟨by simpa using h1, rfl⟩

end Sys2Proof.Laws
end

