-- ==== Sys2Proof/Laws/Step.lean ====
section
/-! SUPPORT. What a cycle can do, said once: the host's moves, the block's move in every state, and the step as their chain. -/

namespace Sys2Proof.Laws

open Sys2Proof.Machine

/-! ### The host's moves -/

/-- A read operation answers the host and changes nothing else (R264, R265, R268, R269, R242). -/
theorem exec_read {off : BitVec 8} {w : Word} {s t : State} (h : exec (decodeAccess .read off w) s = .next t) :
    ∃ v, t = respond v s := by
  unfold decodeAccess at h
  split_ifs at h <;> cases h <;> exact ⟨_, rfl⟩

/-- The host's move at the start of a cycle: every access is admitted, and only `reg_rdata` changes (R260). -/
theorem hostReadMove_cases {s r : State} (h : hostReadMove exec s = .next r) :
    (s.pins.bus.present = true → s.pins.bus.admitted = true) ∧ ∃ v, r = respond v s := by
  unfold hostReadMove at h
  rcases hostInstr_cases s with ⟨hp, hi⟩ | ⟨hp, ha, hi⟩ | ⟨hp, ha, hi⟩ <;> rw [hi] at h
  · cases h; exact ⟨by simp [hp], 0, rfl⟩
  · refine ⟨fun _ => ha, ?_⟩
    simp only [] at h
    split_ifs at h with hw
    · cases h; exact ⟨0, rfl⟩
    · have hd : s.pins.bus.dir = .read := by
        simp only [busWrite, ha, Bool.and_true, Bool.not_eq_true] at hw
        simp [BusAccess.dir, hw]
      rw [hd] at h
      obtain ⟨v, hv⟩ := exec_read h
      exact ⟨v, hv⟩
  · simp only [busWrite, ha, Bool.and_false] at h
    cases h

/-- An access the interface admits never stops the cycle at the host's first move. -/
theorem hostReadMove_next {s : State} (h : s.pins.bus.present = true → s.pins.bus.admitted = true) :
    ∃ v, hostReadMove exec s = .next (respond v s) := by
  unfold hostReadMove
  rcases hostInstr_cases s with ⟨hp, hi⟩ | ⟨hp, ha, hi⟩ | ⟨hp, ha, hi⟩ <;> rw [hi]
  · exact ⟨0, rfl⟩
  · simp only []
    split_ifs with hw
    · exact ⟨0, rfl⟩
    · have hd : s.pins.bus.dir = .read := by
        simp only [busWrite, ha, Bool.and_true, Bool.not_eq_true] at hw
        simp [BusAccess.dir, hw]
      rw [hd]
      unfold decodeAccess
      split_ifs <;> exact ⟨_, rfl⟩
  · rw [h hp] at ha; cases ha

/-- A write of CTRL asks for a STOP in this cycle (R262). -/
def stopWritten (p : Pins) : Bool := p.bus.wr && decide (p.bus.addr = 0x00) && p.bus.wdata.getLsbD 1

/-- The effects that a host write can have: START's own effect in `S_IDLE` (R261), CANCEL_REQ (R262), PACING_MS
(R267), the palette and the converter's output (R241). -/
structure WriteEffect (s u : State) (stop : Bool) : Prop where
  engine : ∃ v, (v = s ∨ (s.seq = .idle ∧ v = startBringUp s)) ∧
    u = { v with cancelReq := u.cancelReq, pacingMs := u.pacingMs, pal := u.pal, convOut := u.convOut }
  cancel : u.cancelReq = (s.cancelReq || stop)
  paletteSize : u.pal.length = s.pal.length
  palette : ∀ w ∈ u.pal, w ∈ s.pal ∨ ∃ c, w = palwrColor c

theorem WriteEffect.refl (s : State) : WriteEffect s s false :=
  ⟨⟨s, .inl rfl, rfl⟩, by simp, rfl, fun _ => .inl⟩

theorem startBringUp_cancel (s : State) : (startBringUp s).cancelReq = s.cancelReq := by
  unfold startBringUp; split_ifs <;> rfl

theorem startBringUp_pal (s : State) : (startBringUp s).pal = s.pal := by
  unfold startBringUp; split_ifs <;> rfl

/-- START and, where the word asks for it, STOP (R261, R263). -/
theorem exec_start (w : Word) (s : State) :
    exec (.start w) s = .next { startBringUp s with cancelReq := s.cancelReq || w.getLsbD 1 } := by
  have hc := startBringUp_cancel s
  change execStart w s = .next { startBringUp s with cancelReq := s.cancelReq || ctrlStop w }
  unfold execStart
  cases h : ctrlStop w
  · rw [Bool.or_false, ← hc]; rfl
  · rw [Bool.or_true]; rfl

/-- What a host write does, by its offset and word (R99). -/
theorem exec_write (off : BitVec 8) (w : Word) (s : State) (hal : aligned off = true) :
    ∃ u, exec (decodeAccess .write off w) s = .next u ∧
      WriteEffect s u (decide (off = 0x00) && w.getLsbD 1) := by
  have hz : inReservedHi off = true ∨ inReservedLo off = true → off ≠ 0x00 := by
    rintro (h | h) rfl <;> revert h <;> decide
  have ignored : off ≠ 0x00 → WriteEffect s s (decide (off = 0x00) && w.getLsbD 1) := fun h => by
    rw [decide_eq_false h, Bool.false_and]; exact WriteEffect.refl s
  unfold decodeAccess
  split_ifs with h1 h2 h3 h4 h5 h6
  · exact ⟨s, rfl, ignored (hz (.inl h1))⟩
  · exact ⟨s, rfl, ignored (hz (.inr h2))⟩
  · rw [decide_eq_true h3, Bool.true_and]
    simp only [decodeCtrl]
    split_ifs with h7 h8
    · refine ⟨_, exec_start w s, ⟨⟨startBringUp s, ?_, rfl⟩, rfl, congrArg List.length (startBringUp_pal s), ?_⟩⟩
      · by_cases hs : s.seq = .idle
        · exact .inr ⟨hs, rfl⟩
        · exact .inl (by simp [startBringUp, hs])
      · intro k hk; exact .inl (startBringUp_pal s ▸ hk)
    · exact ⟨_, rfl, ⟨⟨s, .inl rfl, rfl⟩, by rw [h8]; simp [requestCancel], rfl, fun k => .inl⟩⟩
    · exact ⟨_, rfl, by rw [Bool.not_eq_true _ |>.mp h8]; exact WriteEffect.refl s⟩
  · exact ⟨_, rfl, ignored h3⟩
  · exact ⟨_, rfl, ⟨⟨s, .inl rfl, rfl⟩, by rw [decide_eq_false h3]; simp, rfl, fun k => .inl⟩⟩
  · simp only [exec, execPalwr]
    split_ifs with h7
    · refine ⟨_, rfl, ⟨⟨s, .inl rfl, rfl⟩, by rw [decide_eq_false h3]; simp [writePalette, driveConvert],
        by simp, fun k hk => ?_⟩⟩
      exact (List.mem_or_eq_of_mem_set hk).imp id fun h => ⟨w, h⟩
    · exact ⟨_, rfl, ignored h3⟩
  · exact ⟨_, rfl, ignored h3⟩

/-- The host's move at the end of a cycle (R79), where the access is admitted or there is none. -/
theorem hostWriteMove_effect {s : State} (h : s.pins.bus.present = true → s.pins.bus.admitted = true) :
    ∃ u, hostWriteMove exec s = .next u ∧ WriteEffect s u (stopWritten s.pins) := by
  unfold hostWriteMove
  rcases hostInstr_cases s with ⟨hp, hi⟩ | ⟨hp, ha, hi⟩ | ⟨hp, ha, hi⟩ <;> rw [hi]
  · have hw : s.pins.bus.wr = false := by
      simp only [BusAccess.present, Bool.or_eq_false_iff] at hp; exact hp.1
    exact ⟨s, rfl, by simpa [stopWritten, hw] using WriteEffect.refl s⟩
  · simp only []
    cases hw : s.pins.bus.wr
    · simp only [busWrite, hw, Bool.false_and]
      exact ⟨s, rfl, by simpa [stopWritten, hw] using WriteEffect.refl s⟩
    · have hal : aligned s.pins.bus.addr = true := by
        simp only [BusAccess.admitted, Bool.and_eq_true] at ha; exact ha.2
      have hd : s.pins.bus.dir = .write := by simp [BusAccess.dir, hw]
      simp only [busWrite, hw, ha, Bool.and_self, if_true, hd]
      simpa [stopWritten, hw] using exec_write s.pins.bus.addr s.pins.bus.wdata s hal
  · rw [h hp] at ha; cases ha

/-! ### The block's move -/

/-- The successor of a transmitting state on ok (R161 to R169, R203, R204). -/
def afterOk : Seq → State → State
  | .rstTx => afterSwreset false
  | .tblOpcTx => afterOpcode
  | .tblArgTx => goTo .tblDecode
  | .slpTx => fun s => goWait .slpWait s.par.settleMs s
  | .donTx => fun s => goWait .donWait s.par.settleMs s
  | .rlCmdTx => goTx .rlPixTx
  | .rlPixTx => goTo .rlTop
  | _ => id

/-- The successor of a transmitting state on err. -/
def afterErr : Seq → State → State
  | .rstTx => afterSwreset true
  | _ => raise .transport

/-- Every transmitting state whose frame lies in the table runs the transaction that R152 gives it. -/
theorem blockMove_transmits {s : State} {m : Mode} (hm : txMode s.seq = some m)
    (hf : s.seq = .tblOpcTx ∨ s.seq = .tblArgTx →
      s.frmBase.toNat + s.frmLen.toNat ≤ s.par.tableLen) :
    blockMove exec s = sendCycle m s.txLen s.txByte (afterOk s.seq) (afterErr s.seq) s := by
  have one : ∀ (b : Byte), s.txLen = 1 → (∀ k, k < s.txLen → s.txByte k = some b) →
      (fun k => ([b] : List Byte)[k]?) = s.txByte := by
    intro b h1 h2
    funext k
    cases k with
    | zero => simp [h2 0 (by omega)]
    | succ k => simp [State.txByte, h1]
  have frame : s.seq = .tblOpcTx ∨ s.seq = .tblArgTx → ∃ args : List Byte,
      blockMove exec s = frameCycle s.frmOpc args s ∧ args.length = s.frmLen.toNat ∧
      ∀ k, k < args.length → args[k]? = s.tableRead (s.frmBase.toNat + k) := by
    intro hq
    have hlen := hf hq
    simp only [Params.tableLen] at hlen
    refine ⟨(s.par.initTable.drop s.frmBase.toNat).take s.frmLen.toNat, ?_, by simp; omega, ?_⟩
    · have hfe : fetch s = .instr (decodeFrame s.frmOpc ((s.par.initTable.drop s.frmBase.toNat).take s.frmLen.toNat)) := by
        rcases hq with hq | hq <;> simp [fetch, hq, fetchFrame, State.tableSlice, hlen]
      simp only [blockMove, hfe]
      generalize (s.par.initTable.drop s.frmBase.toNat).take s.frmLen.toNat = args
      unfold decodeFrame
      split
      all_goals (try split_ifs)
      all_goals (try rfl)
      all_goals simp_all [exec, execPwctr1, execPwctr2, execVmctr1, execVmctr2, execMadctl, execVscrsadd, execPixfmt,
        execFrmctr1, execDfunctr]
    · intro k hk
      simp only [List.length_take, List.length_drop] at hk
      rw [List.getElem?_take_of_lt (by omega), List.getElem?_drop]
      rfl
  cases hs : s.seq <;> simp only [hs, txMode] at hm <;> cases hm
  case rstTx =>
    have h1 : s.txLen = 1 := by simp [State.txLen, hs, txMode]
    simp only [blockMove, fetch, hs, exec, execSwreset, sendCommand, sendList, afterOk, afterErr]
    rw [one s.par.opcSwreset h1 (fun k hk => by simp [State.txByte, hk, hs]), h1]; rfl
  case tblOpcTx =>
    have h1 : s.txLen = 1 := by simp [State.txLen, hs, txMode]
    obtain ⟨args, ha, -, -⟩ := frame (.inl hs)
    rw [ha]
    simp only [frameCycle, hs, sendCommand, sendList, afterOk, afterErr, reduceCtorEq, if_false]
    rw [one s.frmOpc h1 (fun k hk => by simp [State.txByte, hk, hs]), h1]; rfl
  case tblArgTx =>
    have h1 : s.txLen = s.frmLen.toNat := by simp [State.txLen, hs]
    obtain ⟨args, ha, hl, hb⟩ := frame (.inr hs)
    rw [ha]
    have hbytes : (fun k => args[k]?) = s.txByte := by
      funext k
      by_cases hk : k < args.length
      · rw [hb k hk]; simp [State.txByte, h1, ← hl, hk, hs]
      · simp only [State.txByte, h1, ← hl, hk, if_false]; simp; omega
    simp only [frameCycle, hs, sendList, afterOk, afterErr, if_true]
    rw [hbytes, hl, h1]
  case slpTx =>
    have h1 : s.txLen = 1 := by simp [State.txLen, hs, txMode]
    simp only [blockMove, fetch, hs, exec, execSlpout, sendCommand, sendList, afterOk, afterErr]
    rw [one s.par.opcSlpout h1 (fun k hk => by simp [State.txByte, hk, hs]), h1]
    simp [sendCycle, goWait]
  case donTx =>
    have h1 : s.txLen = 1 := by simp [State.txLen, hs, txMode]
    simp only [blockMove, fetch, hs, exec, execDispon, sendCommand, sendList, afterOk, afterErr]
    rw [one s.par.opcDispon h1 (fun k hk => by simp [State.txByte, hk, hs]), h1]
    simp [sendCycle, goWait]
  case rlCmdTx =>
    have h1 : s.txLen = 1 := by simp [State.txLen, hs, txMode]
    simp only [blockMove, fetch, hs, exec, execRamwr, sendCommand, sendList, afterOk, afterErr]
    rw [one s.par.opcRamwr h1 (fun k hk => by simp [State.txByte, hk, hs]), h1]; rfl
  case rlPixTx =>
    have h1 : s.txLen = s.par.fbBytes := by simp [State.txLen, hs]
    simp only [blockMove, fetch, hs, unitMove, pixelCycle, afterOk, afterErr]
    have hbytes : pixelByte s = s.txByte := by
      funext k; simp [pixelByte, State.txByte, h1, hs]
    rw [hbytes, h1]

/-! ### The step -/

/-- What a step does, where it answers a next state: the writer's stores and the host's read; then block reset, or the
block's move and the host's write; then the clock. -/
theorem step_cases {s t : State} (h : step s = .next t) :
    (∀ c ∈ s.pins.stores, c.1 < s.par.fbBytes) ∧ (s.pins.bus.present = true → s.pins.bus.admitted = true) ∧
    ∃ v, (s.pins.rst = true ∧ t = clockTick (blockReset (respond v s.stored))) ∨
      (s.pins.rst = false ∧ ∃ b u, blockMove exec (respond v s.stored) = .next b ∧
        hostWriteMove exec b = .next u ∧ t = clockTick u) := by
  unfold step cycle at h
  obtain ⟨s1, h1, h⟩ := andThen_eq_next.mp h
  obtain ⟨hst, rfl⟩ := writerMove_cases h1
  obtain ⟨s2, h2, h⟩ := andThen_eq_next.mp h
  obtain ⟨hb, v, rfl⟩ := hostReadMove_cases h2
  obtain ⟨s3, h3, h⟩ := andThen_eq_next.mp h
  cases h
  refine ⟨hst, hb, v, ?_⟩
  unfold resetOrWork at h3
  rw [respond_pins, stored_pins] at h3
  split_ifs at h3 with hr
  · cases h3; exact .inl ⟨hr, rfl⟩
  · obtain ⟨b, hb1, hb2⟩ := andThen_eq_next.mp h3
    exact .inr ⟨by simpa using hr, b, s3, hb1, hb2, rfl⟩

/-- How a step goes on, where the environment keeps its duties: block reset, or the block's move and the host's write. -/
theorem step_next {s : State} (hd : Pins.dutiful s.pins s.par.fbBytes) :
    ∃ v, step s =
      if s.pins.rst then .next (clockTick (blockReset (respond v s.stored)))
      else andThen (andThen (blockMove exec (respond v s.stored)) (hostWriteMove exec)) fun u => .next (clockTick u) := by
  obtain ⟨v, hv⟩ := hostReadMove_next (s := s.stored) (by rw [stored_pins]; exact hd.1)
  refine ⟨v, ?_⟩
  unfold step cycle
  rw [writerMove_next hd.2, andThen_next, hv, andThen_next]
  unfold resetOrWork
  rw [respond_pins, stored_pins]
  split_ifs <;> rfl

end Sys2Proof.Laws
end

