-- ==== Sys2Proof/Laws/Engine.lean ====
section
/-! SUPPORT. What the engine can do in a cycle without block reset, with no invariant assumed: the decoder's outcomes, the block's move in every state, what it leaves to the host, and the step as the block's move followed by the host's write. -/

namespace Sys2Proof.Laws

open Sys2Proof.Machine

/-! ### The decoder -/

/-- The outcomes of a decode step on the bytes from CURSOR (R130). -/
theorem decodeGroup_cases (l : List Byte) :
    decodeGroup l = .tblSentinel ∨ (∃ n, decodeGroup l = .malformed n) ∨
    ∃ n opc rest, l = n :: opc :: rest ∧ n ≠ 0 ∧ n.toNat ≤ rest.length ∧
      decodeGroup l = .tblGroup opc (rest.take n.toNat) := by
  match l with
  | [] => exact .inr (.inl ⟨_, rfl⟩)
  | [n] =>
    by_cases h : n = 0
    · simp [decodeGroup, h]
    · exact .inr (.inl ⟨some n, by simp only [decodeGroup, if_neg h]⟩)
  | n :: opc :: rest =>
    by_cases h : n = 0
    · simp [decodeGroup, h]
    · by_cases h1 : n.toNat ≤ rest.length
      · exact .inr (.inr ⟨n, opc, rest, rfl, h, h1, by simp only [decodeGroup, if_neg h, h1, if_true]⟩)
      · exact .inr (.inl ⟨some n, by simp only [decodeGroup, if_neg h, h1, if_false]⟩)

/-- The table command that a latched frame is has the frame's opcode and arguments (R188). -/
theorem decodeFrame_frameOf (opc : Byte) (args : List Byte) :
    (decodeFrame opc args).frameOf = some (opc, args) := by
  unfold decodeFrame; split <;> (try split_ifs) <;> simp_all [Instr.frameOf]

/-- An aligned write is decoded by its offset (R99). -/
theorem decode_write {off : BitVec 8} (h : off.toNat % 4 = 0) (w : Word) :
    decode (busCode .write off w) = .ok (decodeAccess .write off w) := by
  simp [decode, decodeBus, busCode, BusAccess.present, BusAccess.admitted, aligned, BusAccess.dir, h]

/-- An aligned read is decoded by its offset (R99). -/
theorem decode_read {off : BitVec 8} (h : off.toNat % 4 = 0) (w : Word) :
    decode (busCode .read off w) = .ok (decodeAccess .read off w) := by
  simp [decode, decodeBus, busCode, BusAccess.present, BusAccess.admitted, aligned, BusAccess.dir, h]

/-! ### START -/

/-- START in `S_IDLE` with the resources available (R261). -/
theorem startBringUp_ok {s : State} (h : s.seq = .idle) (hr : s.pins.resOk = true) :
    startBringUp s = goTx .rstTx { s with pendErr := false } := by
  unfold startBringUp; rw [if_pos h, if_pos hr]

/-- START in `S_IDLE` without them: ResourceUnavailable (R261, R292). -/
theorem startBringUp_err {s : State} (h : s.seq = .idle) (hr : s.pins.resOk = false) :
    startBringUp s = { s with err := .resource, seq := .initFailed } := by
  unfold startBringUp; rw [if_pos h, if_neg (by rw [hr]; decide)]; simp [raise, h, Seq.bringUp, Seq.code]

/-- START elsewhere is ignored (R261). -/
theorem startBringUp_ignored {s : State} (h : s.seq ≠ .idle) : startBringUp s = s := by
  unfold startBringUp; rw [if_neg h]

/-- The fields that START's own effect can change. -/
theorem startBringUp_fields (s : State) : ∃ q x k p e,
    startBringUp s = { s with seq := q, txs := x, txIdx := k, pendErr := p, err := e } := by
  unfold startBringUp; split_ifs <;> exact ⟨_, _, _, _, _, rfl⟩

/-! ### The block's move -/

/-- Where a transmitting state's move answers a next state, it is the transaction of R152. -/
theorem blockMove_tx {s t : State} {m : Mode} (hm : txMode s.seq = some m) (h : blockMove exec s = .next t) :
    sendCycle m s.txLen s.txByte (afterOk s.seq) (afterErr s.seq) s = .next t := by
  rw [← h]; symm
  apply blockMove_transmits hm
  intro hq
  by_contra hc
  have : fetch s = .noFrame := by
    simp only [Params.tableLen] at hc
    rcases hq with hq | hq <;> simp [fetch, hq, fetchFrame, State.tableSlice, hc]
  simp [blockMove, this] at h

/-- The block's move in every state, where it answers a next state. -/
theorem blockMove_cases {s t : State} (h : blockMove exec s = .next t) :
    (∃ m, txMode s.seq = some m ∧ sendCycle m s.txLen s.txByte (afterOk s.seq) (afterErr s.seq) s = .next t) ∨
    (s.seq.waiting = true ∧ ∃ f, t = waitCycle f s ∧
      (f = afterResetDelay ∨ f = goTx .donTx ∨ f = goTo .rlTop ∨ f = goTx .rlCmdTx)) ∨
    (s.seq = .tblDecode ∧ ∃ i, exec i s = .next t ∧
      (i = .tblSentinel ∨ (∃ n, i = .malformed n) ∨ ∃ opc args, i = .tblGroup opc args)) ∨
    (s.seq = .rlTop ∧ t = loopTop s) ∨
    ((s.seq = .idle ∨ s.seq.terminal = true) ∧ t = s) := by
  cases hm : txMode s.seq with
  | some m => exact .inl ⟨m, rfl, blockMove_tx hm h⟩
  | none =>
    by_cases hd : s.seq = .tblDecode
    · refine .inr (.inr (.inl ⟨hd, decodeGroup (s.par.initTable.drop s.cursor.toNat), ?_, ?_⟩))
      · simpa [blockMove, fetch, hd] using h
      · rcases decodeGroup_cases (s.par.initTable.drop s.cursor.toNat) with h1 | ⟨n, h1⟩ | ⟨_, _, _, _, _, _, h1⟩ <;>
          rw [h1] <;> simp
    · unfold blockMove at h
      cases hq : s.seq <;> rw [hq] at hm hd <;> first | exact absurd rfl hd | (cases hm; done) | skip
      all_goals
        simp only [fetch, hq, unitMove] at h
        cases h
        simp [Seq.waiting, Seq.terminal]
      all_goals exact ⟨_, rfl, by simp⟩

/-! ### What the block's move leaves to the host -/

theorem raise_hostSide (e : Err) (s : State) : s.HostSideSame (raise e s) := by constructor <;> rfl
theorem goWait_hostSide (q : Seq) (n : BitVec 16) (s : State) : s.HostSideSame (goWait q n s) := by constructor <;> rfl
theorem goTx_hostSide (q : Seq) (s : State) : s.HostSideSame (goTx q s) := by constructor <;> rfl
theorem goTo_hostSide (q : Seq) (s : State) : s.HostSideSame (goTo q s) := by constructor <;> rfl

/-- A cycle of a transaction leaves the host's side as it is, if its successors do. -/
theorem sendCycle_hostSide {m : Mode} {len : Nat} {byteAt : Nat → Option Byte} {onOk onErr : State → State}
    {s t : State} (hOk : ∀ x : State, x.HostSideSame (onOk x)) (hErr : ∀ x : State, x.HostSideSame (onErr x))
    (h : sendCycle m len byteAt onOk onErr s = .next t) : s.HostSideSame t := by
  rcases sendCycle_cases h with ⟨_, rfl⟩ | ⟨_, _, rfl⟩ | ⟨_, _, _, _, rfl⟩ | ⟨_, _, _, _, rfl⟩ | ⟨_, _, rfl⟩ |
    ⟨_, _, _, rfl⟩ | ⟨_, _, _, rfl⟩
  · constructor <;> rfl
  · constructor <;> rfl
  · constructor <;> rfl
  · constructor <;> rfl
  · constructor <;> rfl
  · have k := hOk (complete .ok s)
    exact ⟨k.1, k.2, k.3, k.4, k.5, k.6, k.7, k.8, k.9⟩
  · have k := hErr (complete .err s)
    exact ⟨k.1, k.2, k.3, k.4, k.5, k.6, k.7, k.8, k.9⟩

theorem afterOk_hostSide (q : Seq) (s : State) : s.HostSideSame (afterOk q s) := by
  have h : s.HostSideSame (afterOpcode s) := by
    unfold afterOpcode; split_ifs
    · exact goTx_hostSide _ _
    · exact goTo_hostSide _ _
  cases q <;> first | exact h | (constructor <;> rfl)

theorem afterErr_hostSide (q : Seq) (s : State) : s.HostSideSame (afterErr q s) := by
  cases q <;> constructor <;> rfl

/-- The block's move leaves the host's side, the Pixel Buffer and the parameters as they are (R72, R77, R243). -/
theorem blockMove_hostSide {s t : State} (h : blockMove exec s = .next t) : s.HostSideSame t := by
  rcases blockMove_cases h with ⟨m, _, h1⟩ | ⟨_, f, rfl, hf⟩ | ⟨_, i, h1, hi⟩ | ⟨_, rfl⟩ | ⟨_, rfl⟩
  · exact sendCycle_hostSide (afterOk_hostSide _) (afterErr_hostSide _) h1
  · rcases waitCycle_cases f s with ⟨_, h1⟩ | ⟨_, _, h1⟩ | ⟨_, _, h1⟩ <;> rw [h1]
    · rcases hf with rfl | rfl | rfl | rfl
      · unfold afterResetDelay; split_ifs <;> constructor <;> rfl
      · exact goTx_hostSide _ _
      · exact goTo_hostSide _ _
      · exact goTx_hostSide _ _
    · constructor <;> rfl
    · constructor <;> rfl
  · rcases hi with rfl | ⟨n, rfl⟩ | ⟨opc, args, rfl⟩ <;> cases h1 <;> constructor <;> rfl
  · unfold loopTop; split_ifs <;> constructor <;> rfl
  · constructor <;> rfl

/-! ### The step without block reset -/

/-- A step without block reset: the block's move, then START's own effect where the block is in `S_IDLE`, then what the
other host writes change. -/
theorem step_work {s t : State} (h : step s = .next t) (hr : s.pins.rst = false) :
    ∃ v b u w, blockMove exec (respond v s.stored) = .next b ∧ (respond v s.stored).HostSideSame b ∧
      (w = b ∨ (b.seq = .idle ∧ w = startBringUp b)) ∧
      u = { w with cancelReq := u.cancelReq, pacingMs := u.pacingMs, pal := u.pal, convOut := u.convOut } ∧
      u.cancelReq = (s.cancelReq || stopWritten s.pins) ∧
      u.pal.length = s.pal.length ∧ (∀ c ∈ u.pal, c ∈ s.pal ∨ ∃ w, c = palwrColor w) ∧ t = clockTick u := by
  obtain ⟨_, hb, v, h1⟩ := step_cases h
  rcases h1 with ⟨hh, _⟩ | ⟨_, b, u, h2, h3, h4⟩
  · rw [hr] at hh; cases hh
  · have hi := blockMove_hostSide h2
    have hp : b.pins = s.pins := pins_congr hi.inputs hi.cycle
    obtain ⟨u', h5, h6⟩ := hostWriteMove_effect (s := b) (by rw [hp]; exact hb)
    rw [h5] at h3; cases h3
    obtain ⟨⟨w, h7, h8⟩, h9, h11, h10⟩ := h6
    rw [show b.cancelReq = s.cancelReq from hi.cancelReq, hp] at h9
    rw [show b.pal = s.pal from hi.pal] at h10 h11
    exact ⟨v, b, u, w, h2, hi, h7, h8, h9, h11, h10, h4⟩

end Sys2Proof.Laws
end

