-- ==== Sys2Proof/Laws/Memory.lean ====
section
/-! SUPPORT. The Pixel Buffer's memory: reading after a store, and the canonical form that every memory operation keeps. -/

namespace Sys2Proof.Laws

open Sys2Proof.Machine

/-- A read after a store gives the byte stored at its offset and the former byte elsewhere. -/
theorem read_write (m : Memory) (x y : Nat) (v : Byte) :
    Memory.read? (Memory.write m x v) y = if y = x then some v else Memory.read? m y := by
  induction m with
  | nil =>
    simp only [Memory.write, Memory.read?]
    split_ifs <;> first | rfl | omega
  | cons c rest ih =>
    obtain ⟨a, b⟩ := c
    simp only [Memory.write]
    split_ifs with h1 h2
    all_goals simp only [Memory.read?, ih]
    all_goals split_ifs <;> first | rfl | omega

theorem read_write_same (m : Memory) (x : Nat) (v : Byte) :
    Memory.read? (Memory.write m x v) x = some v := by
  rw [read_write]; simp

theorem read_write_other (m : Memory) {x y : Nat} (v : Byte) (h : y ≠ x) :
    Memory.read? (Memory.write m x v) y = Memory.read? m y := by
  rw [read_write]; simp [h]

/-- A store keeps the offsets above `a`, if its own offset is. -/
theorem above_write {m : Memory} {a x : Nat} {v : Byte} (h : Memory.above a m = true) (hx : a < x) :
    Memory.above a (Memory.write m x v) = true := by
  cases m with
  | nil => simpa [Memory.write, Memory.above] using hx
  | cons c rest =>
    obtain ⟨d, b⟩ := c
    simp only [Memory.write]
    split_ifs <;> simp_all [Memory.above]

/-- A store keeps the canonical form. -/
theorem wf_write {m : Memory} (x : Nat) (v : Byte) (h : Memory.wf m = true) :
    Memory.wf (Memory.write m x v) = true := by
  induction m with
  | nil => rfl
  | cons c rest ih =>
    obtain ⟨a, b⟩ := c
    simp only [Memory.wf, Bool.and_eq_true] at h
    simp only [Memory.write]
    split_ifs with h1 h2
    · simp only [Memory.wf, h.1, h.2]
      simp [Memory.above, h1]
    · subst h2; simp [Memory.wf, h.1, h.2]
    · simp only [Memory.wf, Bool.and_eq_true]
      exact ⟨above_write h.1 (by omega), ih h.2⟩

/-- The writer's stores of a cycle keep the canonical form. -/
theorem wf_writeAll {m : Memory} (l : List (Nat × Byte)) (h : Memory.wf m = true) :
    Memory.wf (Memory.writeAll m l) = true := by
  induction l generalizing m with
  | nil => exact h
  | cons c rest ih => exact ih (wf_write c.1 c.2 h)

/-- A store inside the buffer keeps every listed offset inside. -/
theorem below_write {m : Memory} {n x : Nat} (v : Byte) (h : Memory.below n m = true) (hx : x < n) :
    Memory.below n (Memory.write m x v) = true := by
  induction m with
  | nil => simpa [Memory.write, Memory.below] using hx
  | cons c rest ih =>
    obtain ⟨a, b⟩ := c
    simp only [Memory.below, List.all_cons, Bool.and_eq_true, decide_eq_true_eq] at h ih
    simp only [Memory.write]
    split_ifs <;> simp_all [Memory.below] <;> first | exact ih | exact h.2

theorem below_writeAll {m : Memory} {n : Nat} (l : List (Nat × Byte)) (h : Memory.below n m = true)
    (hl : ∀ c ∈ l, c.1 < n) : Memory.below n (Memory.writeAll m l) = true := by
  induction l generalizing m with
  | nil => exact h
  | cons c rest ih =>
    exact ih (below_write c.2 h (hl c (by simp))) (fun d hd => hl d (by simp [hd]))

/-- The memory of the state after block reset is in canonical form. -/
theorem reset_memory_wf : Memory.wf State.reset.fb = true := rfl

end Sys2Proof.Laws
end

