-- ==== Sys2Proof/Laws/Params.lean ====
section
/-! SUPPORT. The widths that the parameters of R5 derive, and reading a palette entry after a write. -/

namespace Sys2Proof.Laws

open Sys2Proof.Machine

/-- Every offset of the Pixel Buffer has an address of `FB_AW` bits, and no fewer bits have as many. -/
theorem fbAw_reaches (p : Params) : p.fbBytes ≤ 2 ^ p.fbAw := Nat.le_pow_clog (by decide) _

theorem fbAw_least {p : Params} {k : Nat} (h : p.fbBytes ≤ 2 ^ k) : p.fbAw ≤ k := Nat.clog_le_of_le_pow h

/-- `TX_IDX` counts every transaction of R152 to its end. -/
theorem txLen_le (s : State) : s.txLen ≤ 2 ^ s.par.txIdxWidth := by
  have h8 : 2 ^ 8 ≤ 2 ^ s.par.txIdxWidth := Nat.pow_le_pow_right (by decide) (le_max_right _ _)
  have hf : 2 ^ s.par.fbAw ≤ 2 ^ s.par.txIdxWidth := Nat.pow_le_pow_right (by decide) (le_max_left _ _)
  have hb := fbAw_reaches s.par
  have hl := s.frmLen.isLt
  unfold State.txLen
  split
  · exact (Nat.le_of_lt hl).trans h8
  · exact hb.trans hf
  · split_ifs
    · exact Nat.one_le_two_pow
    · exact Nat.zero_le _

/-- An offset of the Pixel Buffer stands on `fb_addr` as it is (R61). -/
theorem fbAddr_toNat {s : State} (hq : s.seq = .rlPixTx) (hx : s.txs = .stream) (hi : s.txIdx < s.par.fbBytes) :
    s.fbAddr.toNat = s.txIdx := by
  have hb := fbAw_reaches s.par
  rw [State.fbAddr, if_pos ⟨hq, hx⟩, BitVec.toNat_ofNat, Nat.mod_eq_of_lt (by omega)]

theorem palEntry_of_getElem? {s : State} {i : Nat} {w : Word} (h : s.pal[i]? = some w) : s.palEntry i = w := by
  simp [State.palEntry, h]

theorem palEntry_outside {s : State} {i : Nat} (h : s.pal.length ≤ i) : s.palEntry i = 0 := by
  rw [State.palEntry, List.getElem?_eq_none h]; rfl

/-- A palette entry after a write (R241). -/
theorem palEntry_writePalette (s : State) (i j : Nat) (w : Word) (h : i < s.pal.length) :
    (writePalette i w s).palEntry j = if j = i then w else s.palEntry j := by
  simp only [State.palEntry, writePalette_pal, List.getElem?_set]
  by_cases hj : i = j
  · subst hj; simp [h]
  · simp [hj, Ne.symm hj]

end Sys2Proof.Laws
end

