-- ==== Sys2Proof/Laws/PerInstr.lean ====
section
/-! SUPPORT. One lemma per instruction: its encoding fits the unit that carries it (30_encoding.md R90, R95, R99). -/

namespace Sys2Proof.Laws.EncodingFits

/-- A code fits its unit: a group has at most 257 bytes, a frame 1 to 255 arguments (R27, R90), a command byte is one of
the four fixed ones (R95), an admitted host access is read back from its 41-bit key (R99). -/
def fits : Code → Prop
  | .table bytes => bytes.length ≤ 257
  | .frame _ args => 1 ≤ args.length ∧ args.length ≤ 255
  | .command b => (decodeCommand b).isSome = true
  | .bus a => a.admitted = true → a.toKey < 2 ^ 41 ∧ BusAccess.ofKey a.toKey = a
  | .rgb _ _ _ => True

/-- What the family says of an instruction. -/
def Statement (i : Instr) : Prop := i.wellFormed = true → fits (encode i)

/-- Every admitted access is read back from its key. -/
theorem access_fits (a : BusAccess) : fits (.bus a) := by
  intro h
  obtain ⟨wr, rd, narrow, addr, wdata⟩ := a
  simp only [BusAccess.admitted, Bool.and_eq_true, bne_iff_ne, ne_eq, Bool.not_eq_true'] at h
  obtain ⟨⟨h1, rfl⟩, -⟩ := h
  have ha := addr.isLt
  have hw := wdata.isLt
  have hk : BusAccess.toKey ⟨wr, rd, false, addr, wdata⟩ =
      (if wr then 2 ^ 40 else 0) + addr.toNat * 2 ^ 32 + wdata.toNat := rfl
  generalize BusAccess.toKey ⟨wr, rd, false, addr, wdata⟩ = k at hk ⊢
  have e1 : BitVec.ofNat 8 (k / 2 ^ 32) = addr := BitVec.eq_of_toNat_eq (by
    rw [BitVec.toNat_ofNat, hk]; cases wr <;> simp <;> omega)
  have e2 : BitVec.ofNat 32 k = wdata := BitVec.eq_of_toNat_eq (by
    rw [BitVec.toNat_ofNat, hk]; cases wr <;> simp <;> omega)
  refine ⟨by rw [hk]; cases wr <;> simp <;> omega, ?_⟩
  have e3 : k / 2 ^ 40 % 2 = if wr then 1 else 0 := by
    rw [hk]; cases wr <;> simp <;> omega
  unfold BusAccess.ofKey
  rw [e1, e2, e3]
  cases wr <;> cases rd <;> simp_all

/-- Every host operation's access is read back from its key. -/
theorem bus_fits (dir : Dir) (off : BitVec 8) (w : Word) : fits (busCode dir off w) := access_fits _

theorem tblSentinel : Statement .tblSentinel := fun _ => by simp [encode, fits]
theorem tblGroup (opc : Byte) (args : List Byte) : Statement (.tblGroup opc args) := by
  intro h; simp [Instr.wellFormed, frameLength] at h; simp [encode, fits]; omega
theorem malformed (n : Option Byte) : Statement (.malformed n) := by
  intro _; cases n <;> simp [encode, fits]
theorem swreset : Statement .swreset := fun _ => rfl
theorem slpout : Statement .slpout := fun _ => rfl
theorem dispon : Statement .dispon := fun _ => rfl
theorem ramwr : Statement .ramwr := fun _ => rfl
theorem pwctr1 (a0 : Byte) : Statement (.pwctr1 a0) := fun _ => ⟨by simp, by simp⟩
theorem pwctr2 (a0 : Byte) : Statement (.pwctr2 a0) := fun _ => ⟨by simp, by simp⟩
theorem vmctr1 (a0 : Byte) (a1 : Byte) : Statement (.vmctr1 a0 a1) := fun _ => ⟨by simp, by simp⟩
theorem vmctr2 (a0 : Byte) : Statement (.vmctr2 a0) := fun _ => ⟨by simp, by simp⟩
theorem madctl (a0 : Byte) : Statement (.madctl a0) := fun _ => ⟨by simp, by simp⟩
theorem vscrsadd (a0 : Byte) : Statement (.vscrsadd a0) := fun _ => ⟨by simp, by simp⟩
theorem pixfmt (a0 : Byte) : Statement (.pixfmt a0) := fun _ => ⟨by simp, by simp⟩
theorem frmctr1 (a0 : Byte) (a1 : Byte) : Statement (.frmctr1 a0 a1) := fun _ => ⟨by simp, by simp⟩
theorem dfunctr (a0 : Byte) (a1 : Byte) (a2 : Byte) : Statement (.dfunctr a0 a1 a2) := fun _ => ⟨by simp, by simp⟩
theorem tblCmd (opc : Byte) (args : List Byte) : Statement (.tblCmd opc args) := by
  intro h; simp [Instr.wellFormed, frameLength] at h; exact ⟨h.1.1, h.1.2⟩
theorem convert (red : Word) (green : Word) (blue : Word) : Statement (.convert red green blue) := fun _ => trivial
theorem start (w : Word) : Statement (.start w) := fun _ => bus_fits .write 0x00 w
theorem stop (w : Word) : Statement (.stop w) := fun _ => bus_fits .write 0x00 w
theorem ctrlNop (w : Word) : Statement (.ctrlNop w) := fun _ => bus_fits .write 0x00 w
theorem readCtrl : Statement .readCtrl := fun _ => bus_fits .read 0x00 0
theorem readStatus : Statement .readStatus := fun _ => bus_fits .read 0x04 0
theorem writeStatus (w : Word) : Statement (.writeStatus w) := fun _ => bus_fits .write 0x04 w
theorem writePacing (w : Word) : Statement (.writePacing w) := fun _ => bus_fits .write 0x08 w
theorem readPacing : Statement .readPacing := fun _ => bus_fits .read 0x08 0
theorem palwr (w : Word) : Statement (.palwr w) := fun _ => bus_fits .write 0x0C w
theorem readPalwr : Statement .readPalwr := fun _ => bus_fits .read 0x0C 0
theorem readPal (i : Fin 16) : Statement (.readPal i) := fun _ => bus_fits .read (palOffset i) 0
theorem writePal (i : Fin 16) (w : Word) : Statement (.writePal i w) := fun _ => bus_fits .write (palOffset i) w
theorem reservedHi (dir : Dir) (off : BitVec 8) (w : Word) : Statement (.reservedHi dir off w) := fun _ => bus_fits dir off w
theorem reservedLo (dir : Dir) (off : BitVec 8) (w : Word) : Statement (.reservedLo dir off w) := fun _ => bus_fits dir off w
theorem refusedAccess (a : BusAccess) : Statement (.refusedAccess a) := fun _ => access_fits a

end Sys2Proof.Laws.EncodingFits
end

