-- ==== Sys2Proof/Tests/Slice0.lean ====
section
/-! SUPPORT. The model's own tests: ill-formed terms, words written out from 30_encoding.md, one step each on small states (expected results from 95_test_vectors.md and the rules' examples), and a witness for the hypotheses of every statement. -/

namespace Sys2Proof.Tests

open Sys2Proof.Machine Sys2Proof.Laws

/-! ### Ill-formed terms, one for each check of WellFormed -/

theorem test_wf_group_without_arguments : (Instr.tblGroup 0xC0 []).wellFormed = false := by decide
theorem test_wf_group_too_long : (Instr.tblGroup 0xC0 (List.replicate 256 0)).wellFormed = false := by
  have h : (List.replicate 256 (0 : Byte)).length = 256 := List.length_replicate
  generalize List.replicate 256 (0 : Byte) = l at h ⊢
  simp [Instr.wellFormed, frameLength, h]
theorem test_wf_malformed_zero : (Instr.malformed (some 0)).wellFormed = false := by decide
theorem test_wf_cmd_without_arguments : (Instr.tblCmd 0x2A []).wellFormed = false := by decide
theorem test_wf_cmd_named : (Instr.tblCmd 0xC5 [0x3E, 0x28]).wellFormed = false := by decide
theorem test_wf_cmd_other_length : (Instr.tblCmd 0xC5 [0x3E]).wellFormed = true := by decide
theorem test_wf_start_bit_clear : (Instr.start 2).wellFormed = false := by decide
theorem test_wf_stop_start_set : (Instr.stop 3).wellFormed = false := by decide
theorem test_wf_stop_bit_clear : (Instr.stop 4).wellFormed = false := by decide
theorem test_wf_nop_start_set : (Instr.ctrlNop 1).wellFormed = false := by decide
theorem test_wf_nop_stop_set : (Instr.ctrlNop 2).wellFormed = false := by decide
theorem test_wf_hi_low_offset : (Instr.reservedHi .read 0x7C 0).wellFormed = false := by decide
theorem test_wf_hi_misaligned : (Instr.reservedHi .read 0x81 0).wellFormed = false := by decide
theorem test_wf_lo_named_offset : (Instr.reservedLo .write 0x0C 0).wellFormed = false := by decide
theorem test_wf_lo_palette_offset : (Instr.reservedLo .write 0x40 0).wellFormed = false := by decide
theorem test_wf_lo_misaligned : (Instr.reservedLo .write 0x12 0).wellFormed = false := by decide

/-- A host access with these pins, a whole word. -/
def access (wr rd : Bool) (addr : BitVec 8) (wdata : Word) : BusAccess :=
  { wr := wr, rd := rd, narrow := false, addr := addr, wdata := wdata }

theorem test_wf_refused_admitted : (Instr.refusedAccess (access false true 0x04 0)).wellFormed = false := by decide
theorem test_wf_refused_no_access : (Instr.refusedAccess (access false false 0x06 0)).wellFormed = false := by decide

/-! ### Decoding: words written out from 30_encoding.md and 95_test_vectors.md L2.1 -/

/-- CD-2. -/
theorem test_dec_sentinel : decodeGroup [0x00] = .tblSentinel := by decide
/-- CD-7: what follows the sentinel is never read. -/
theorem test_dec_sentinel_rest : decodeGroup [0x00, 0xFF, 0xFF] = .tblSentinel := by decide
/-- CD-6: an opcode byte 0x00 is a frame. -/
theorem test_dec_group : decodeGroup [0x02, 0x00, 0x11, 0x22, 0x00] = .tblGroup 0x00 [0x11, 0x22] := by decide
/-- CD-12: a desynchronised table decodes silently. -/
theorem test_dec_group_desync : decodeGroup [0x02, 0xAA, 0x01, 0x00, 0x00] = .tblGroup 0xAA [0x01, 0x00] := by decide
/-- CD-9: the maximum length. -/
theorem test_dec_group_longest :
    decodeGroup (0xFF :: 0x2A :: (List.replicate 255 0x77 ++ [0x00])) = .tblGroup 0x2A (List.replicate 255 0x77) := by
  have h : (List.replicate 255 (0x77 : Byte)).length = 255 := List.length_replicate
  generalize List.replicate 255 (0x77 : Byte) = l at h ⊢
  simp [decodeGroup, h]
/-- CD-1. -/
theorem test_dec_malformed_empty : decodeGroup [] = .malformed none := by decide
/-- CD-4, CD-5. -/
theorem test_dec_malformed_short :
    decodeGroup [0x01, 0xC0] = .malformed (some 1) ∧ decodeGroup [0x01] = .malformed (some 1) := by decide
/-- CD-11: one byte short. -/
theorem test_dec_malformed_by_one :
    decodeGroup (0xFF :: 0x2A :: List.replicate 254 0x77) = .malformed (some 0xFF) := by
  have h : (List.replicate 254 (0x77 : Byte)).length = 254 := List.length_replicate
  generalize List.replicate 254 (0x77 : Byte) = l at h ⊢
  simp [decodeGroup, h]

theorem test_dec_swreset : decodeTableWord 8 0x01 = some .swreset := by decide
theorem test_dec_slpout : decodeTableWord 8 0x11 = some .slpout := by decide
theorem test_dec_dispon : decodeTableWord 8 0x29 = some .dispon := by decide
theorem test_dec_ramwr : decodeTableWord 8 0x2C = some .ramwr := by decide
/-- R97, the nine reference frames. -/
theorem test_dec_pwctr1 : decodeTableWord 24 0x01C023 = some (.pwctr1 0x23) := by decide
theorem test_dec_pwctr2 : decodeTableWord 24 0x01C110 = some (.pwctr2 0x10) := by decide
theorem test_dec_vmctr1 : decodeTableWord 32 0x02C53E28 = some (.vmctr1 0x3E 0x28) := by decide
theorem test_dec_vmctr2 : decodeTableWord 24 0x01C786 = some (.vmctr2 0x86) := by decide
theorem test_dec_madctl : decodeTableWord 24 0x013640 = some (.madctl 0x40) := by decide
theorem test_dec_vscrsadd : decodeTableWord 24 0x013700 = some (.vscrsadd 0x00) := by decide
theorem test_dec_pixfmt : decodeTableWord 24 0x013A66 = some (.pixfmt 0x66) := by decide
theorem test_dec_frmctr1 : decodeTableWord 32 0x02B10018 = some (.frmctr1 0x00 0x18) := by decide
theorem test_dec_dfunctr : decodeTableWord 40 0x03B6088227 = some (.dfunctr 0x08 0x82 0x27) := by decide
/-- P2: a frame with no name. -/
theorem test_dec_tblCmd : decode (.frame 0x00 [0x11, 0x22]) = .ok (.tblCmd 0x00 [0x11, 0x22]) := by decide
theorem test_dec_convert : decode (.rgb 0x3F 0x00 0x01) = .ok (.convert 0x3F 0x00 0x01) := by decide
/-- R99, the 41-bit keys (direction, offset, data), as opcode_table.json writes them. -/
theorem test_dec_start : decodeTableWord 48 0x10000000001 = some (.start 1) := by decide
theorem test_dec_start_stop : decodeTableWord 48 0x10000000003 = some (.start 3) := by decide
theorem test_dec_stop : decodeTableWord 48 0x10000000002 = some (.stop 2) := by decide
theorem test_dec_ctrlNop : decodeTableWord 48 0x100FFFFFFFC = some (.ctrlNop 0xFFFFFFFC) := by decide
theorem test_dec_readCtrl : decodeTableWord 48 0x00000000000 = some .readCtrl := by decide
theorem test_dec_readStatus : decodeTableWord 48 0x00400000000 = some .readStatus := by decide
theorem test_dec_writeStatus : decodeTableWord 48 0x104FFFFFFFF = some (.writeStatus 0xFFFFFFFF) := by decide
theorem test_dec_writePacing : decodeTableWord 48 0x108000102BC = some (.writePacing 0x000102BC) := by decide
theorem test_dec_readPacing : decodeTableWord 48 0x00800000000 = some .readPacing := by decide
theorem test_dec_palwr : decodeTableWord 48 0x10C023F3F3F = some (.palwr 0x023F3F3F) := by decide
theorem test_dec_readPalwr : decodeTableWord 48 0x00C00000000 = some .readPalwr := by decide
theorem test_dec_readPal : decodeTableWord 48 0x04800000000 = some (.readPal 2) := by decide
theorem test_dec_readPal_last : decodeTableWord 48 0x07C00000000 = some (.readPal 15) := by decide
theorem test_dec_writePal : decodeTableWord 48 0x14C12345678 = some (.writePal 3 0x12345678) := by decide
theorem test_dec_reservedHi : decodeTableWord 48 0x08000000000 = some (.reservedHi .read 0x80 0) := by decide
theorem test_dec_reservedHi_last : decodeTableWord 48 0x1FC00000007 = some (.reservedHi .write 0xFC 7) := by decide
theorem test_dec_reservedLo : decodeTableWord 48 0x01000000000 = some (.reservedLo .read 0x10 0) := by decide
theorem test_dec_reservedLo_last : decodeTableWord 48 0x13C00000007 = some (.reservedLo .write 0x3C 7) := by decide
/-- HI-18, HI-19. -/
theorem test_dec_refused :
    decode (.bus (access false true 0x06 0)) = .ok (.refusedAccess (access false true 0x06 0)) ∧
    decode (.bus (access true true 0x04 0)) = .ok (.refusedAccess (access true true 0x04 0)) := by decide
theorem test_dec_refused_narrow :
    decode (.bus { access false true 0x04 0 with narrow := true }) =
      .ok (.refusedAccess { access false true 0x04 0 with narrow := true }) := by decide
/-- R95, R27, R260: what is no instruction is rejected by name. -/
theorem test_dec_rejects :
    decode (.command 0x36) = .error (.noFixedCommand 0x36) ∧ decode (.frame 0x36 []) = .error (.noFrame 0) ∧
    decode (.bus (access false false 0x00 0)) = .error .noAccess := by decide

/-! ### Small states -/

/-- A small instance: FB_BYTES is 6 (L2.5), CYCLES_PER_MS 3, SETTLE_MS 2, a table of two frames. -/
def par : Params where
  width := 1
  height := 2
  bpp := 3
  settleMs := 2
  pacingResetMs := 2
  cyclesPerMs := 3
  initTable := [0x02, 0xC5, 0x3E, 0x28, 0x01, 0x36, 0x48, 0x00]
  palEntries := 16
  opcSwreset := 0x01
  opcSlpout := 0x11
  opcDispon := 0x29
  opcRamwr := 0x2C
  regBase := 0

/-- The pins of a cycle: the transport's three, and nothing else happens. -/
def pins (txReady rspValid rspErr : Bool) : Pins :=
  { quietPins with txReady := txReady, rspValid := rspValid, rspErr := rspErr }

/-- A host access in a cycle. -/
def busPins (a : BusAccess) : Pins := { quietPins with bus := a }

/-- The small instance in a sequencer state, its first frame latched. -/
def st (q : Seq) (x : Txs) (p : Pins) : State :=
  { State.resetWith par with
    seq := q, txs := x, frmOpc := 0xC5, frmLen := 2, frmBase := 2, cursor := 4, inputs := [p],
    fb := [(0, 0x10), (1, 0x11), (2, 0x12), (3, 0x13), (4, 0x14), (5, 0x15)] }

/-- The same in TX_WAIT, the bytes handed over. -/
def waitSt (q : Seq) (m : Mode) (bytes : List Byte) (p : Pins) : State :=
  { st q .wait p with dc := m, sent := bytes }

/-- The same in TX_STREAM. -/
def streamSt (q : Seq) (m : Mode) (bytes : List Byte) (p : Pins) : State :=
  { st q .stream p with dc := m, sent := bytes, txIdx := bytes.length }

/-- The small instance in `S_TBL_DECODE` at a cursor. -/
def decodeSt (cursor : BitVec 16) (p : Pins) : State := { st .tblDecode .setup p with cursor := cursor }

/-- A wait state with its counters. -/
def delaySt (q : Seq) (ms : BitVec 16) (pre : Nat) : State :=
  { st q .setup quietPins with msLeft := ms, pre := pre }

/-- A failed bring-up. -/
def failedSt (p : Pins) : State := { st .initFailed .setup p with err := .transport }

/-- The next state, where there is one. -/
def got (o : Result) : Option State :=
  match o with
  | .next s => some s
  | .fault _ => none
  | .refused _ => none

/-- One field of the next state. -/
def field {α : Type} (o : Result) (f : State → α) : Option α := (got o).map f

theorem next_of_got {o : Result} (h : (got o).isSome = true) : ∃ t, o = .next t := by
  cases o <;> simp_all [got]

/-! ### One instruction each -/

/-- R132: CURSOR is unchanged. -/
theorem test_tblSentinel :
    field (exec .tblSentinel (decodeSt 7 quietPins)) (fun t => (t.seq, t.txs, t.cursor)) =
      some (.slpTx, .setup, 7) := by decide
/-- R133, at the second group of the table. -/
theorem test_tblGroup :
    field (exec (.tblGroup 0x36 [0x48]) (decodeSt 4 quietPins))
      (fun t => (t.seq, t.frmOpc, t.frmLen, t.frmBase, t.cursor)) = some (.tblOpcTx, 0x36, 1, 6, 7) := by decide
/-- P3, R134: STATUS reads 0x26. -/
theorem test_malformed :
    field (exec (.malformed (some 3)) (decodeSt 3 quietPins)) (fun t => (t.seq, t.cursor, t.statusWord)) =
      some (.initFailed, 3, 0x26) := by decide
/-- PE-2: SWRESET answers err; the delay follows, the failure is noted. -/
theorem test_swreset_err :
    field (exec .swreset (waitSt .rstTx .command [0x01] (pins false true true)))
      (fun t => (t.seq, t.pendErr, t.msLeft, t.err)) = some (.rstWait, true, 2, .none) := by decide
/-- PE-5: SLPOUT answers err; no settle delay. -/
theorem test_slpout_err :
    field (exec .slpout (waitSt .slpTx .command [0x11] (pins false true true)))
      (fun t => (t.seq, t.msLeft, t.statusWord)) = some (.initFailed, 0, 0x16) := by decide
theorem test_slpout_ok :
    field (exec .slpout (waitSt .slpTx .command [0x11] (pins false true false)))
      (fun t => (t.seq, t.msLeft, t.log)) =
        some (.slpWait, 2, [{ mode := .command, bytes := [0x11], result := .ok }]) := by decide
theorem test_dispon_ok :
    field (exec .dispon (waitSt .donTx .command [0x29] (pins false true false)))
      (fun t => (t.seq, t.msLeft, t.pre)) = some (.donWait, 2, 0) := by decide
/-- LP-4: RAMWR answers err. -/
theorem test_ramwr_err :
    field (exec .ramwr (waitSt .rlCmdTx .command [0x2C] (pins false true true)))
      (fun t => (t.seq, t.statusWord)) = some (.rlFailed, 0x17) := by decide
theorem test_ramwr_ok :
    field (exec .ramwr (waitSt .rlCmdTx .command [0x2C] (pins false true false)))
      (fun t => (t.seq, t.txs, t.txIdx)) = some (.rlPixTx, .setup, 0) := by decide
/-- L2.3, cycle 9: TX_SETUP of the arguments. -/
theorem test_vmctr1_setup :
    field (exec (.vmctr1 0x3E 0x28) (st .tblArgTx .setup quietPins)) (fun t => (t.dc, t.txs, t.txIdx)) =
      some (.data, .stream, 0) := by decide
/-- L2.3, cycle 16: the log gains `[3E 28] D` ok. -/
theorem test_vmctr1_response :
    field (exec (.vmctr1 0x3E 0x28) (waitSt .tblArgTx .data [0x3E, 0x28] (pins false true false)))
      (fun t => (t.seq, t.log)) =
        some (.tblDecode, [{ mode := .data, bytes := [0x3E, 0x28], result := .ok }]) := by decide
/-- PE-3: the opcode answers err. -/
theorem test_pwctr1_opcode_err :
    field (exec (.pwctr1 0x23) (waitSt .tblOpcTx .command [0xC0] (pins false true true)))
      (fun t => (t.seq, t.statusWord)) = some (.initFailed, 0x16) := by decide
/-- R179: the opcode byte handed over. -/
theorem test_pwctr1_byte :
    field (exec (.pwctr1 0x23) (streamSt .tblOpcTx .command [] (pins true false false)))
      (fun t => (t.sent, t.txs)) = some ([0xC0], .wait) := by decide
/-- R180, R182 to R187: the opcode byte and the first argument byte handed over. -/
def opcodeByte (i : Instr) : Option (List Byte) :=
  field (exec i (streamSt .tblOpcTx .command [] (pins true false false))) (fun t => t.sent)
def firstArgument (i : Instr) : Option (List Byte) :=
  field (exec i (streamSt .tblArgTx .data [] (pins true false false))) (fun t => t.sent)
theorem test_pwctr2 : opcodeByte (.pwctr2 0x10) = some [0xC1] ∧ firstArgument (.pwctr2 0x10) = some [0x10] := by decide
theorem test_vmctr2 : opcodeByte (.vmctr2 0x86) = some [0xC7] ∧ firstArgument (.vmctr2 0x86) = some [0x86] := by decide
theorem test_madctl : opcodeByte (.madctl 0x40) = some [0x36] ∧ firstArgument (.madctl 0x40) = some [0x40] := by decide
theorem test_vscrsadd :
    opcodeByte (.vscrsadd 0x00) = some [0x37] ∧ firstArgument (.vscrsadd 0x00) = some [0x00] := by decide
theorem test_pixfmt : opcodeByte (.pixfmt 0x66) = some [0x3A] ∧ firstArgument (.pixfmt 0x66) = some [0x66] := by decide
theorem test_frmctr1 :
    opcodeByte (.frmctr1 0x00 0x18) = some [0xB1] ∧ firstArgument (.frmctr1 0x00 0x18) = some [0x00] := by decide
theorem test_dfunctr :
    opcodeByte (.dfunctr 0x08 0x82 0x27) = some [0xB6] ∧ firstArgument (.dfunctr 0x08 0x82 0x27) = some [0x08] := by
  decide
/-- PE-10: a table opcode equal to OPC_RAMWR is an ordinary frame. -/
theorem test_tblCmd :
    field (exec (.tblCmd 0x2C [0x00]) (waitSt .tblOpcTx .command [0x2C] (pins false true false)))
      (fun t => (t.seq, t.msLeft)) = some (.tblArgTx, 0) := by decide
/-- L2.3, cycles 11 and 13: the second byte is the last. -/
theorem test_tblCmd_last_byte :
    field (exec (.tblCmd 0x00 [0x11, 0x22]) (streamSt .tblArgTx .data [0x11] (pins true false false)))
      (fun t => (t.sent, t.txs, t.txIdx)) = some ([0x11, 0x22], .wait, 1) := by decide
/-- CV-6, CV-7. -/
theorem test_convert :
    convert 0x2A 0x15 0x3F = 0x00A854FC ∧ convert 0xFFFFFFFF 0x00 0x12345678 = 0x00FC00E0 := by decide
/-- L1.5, CV-3. -/
theorem test_convert_masks :
    field (exec (.convert 0x3F 0x00 0x00) (st .idle .setup quietPins)) (fun t => t.convOut) = some 0x00FC0000 ∧
    convert 0x40 0x80 0xC0 = 0 := by decide
/-- HI-14, HI-15. -/
theorem test_start :
    field (exec (.start 1) (st .idle .wait quietPins)) (fun t => (t.seq, t.txs, t.statusWord)) =
      some (.rstTx, .setup, 0x1) := by decide
/-- HI-17: START without resources, and STOP, in one write. -/
theorem test_start_no_resources :
    field (exec (.start 3) (st .idle .setup { quietPins with resOk := false })) (fun t => t.statusWord) =
      some 0x136 := by decide
/-- HI-13. -/
theorem test_stop :
    field (exec (.stop 2) (st .idle .setup quietPins)) (fun t => (t.seq, t.statusWord)) = some (.idle, 0x100) := by
  decide
/-- HI-12. -/
theorem test_ctrlNop :
    got (exec (.ctrlNop 0xFFFFFFFC) (st .idle .setup quietPins)) = some (st .idle .setup quietPins) := by decide
theorem test_readCtrl :
    field (exec .readCtrl (respond 7 (st .idle .setup quietPins))) (fun t => t.rdata) = some 0 := by decide
/-- R265: STATUS after a failure of the loop with a STOP pending. -/
theorem test_readStatus :
    field (exec .readStatus { st .rlFailed .setup quietPins with err := .transport, cancelReq := true })
      (fun t => t.rdata) = some 0x117 := by decide
/-- HI-10. -/
theorem test_writeStatus :
    got (exec (.writeStatus 0xFFFFFFFF) (st .idle .setup quietPins)) = some (st .idle .setup quietPins) := by decide
/-- HI-7, HI-8. -/
theorem test_writePacing :
    field (exec (.writePacing 0xABCD1234) (st .idle .setup quietPins)) (fun t => t.pacingMs) = some 0x1234 ∧
    field (exec (.writePacing 0x000102BC) (st .idle .setup quietPins)) (fun t => t.pacingMs) = some 700 := by decide
theorem test_readPacing :
    field (exec .readPacing { st .idle .setup quietPins with pacingMs := 700 }) (fun t => t.rdata) = some 0x2BC := by
  decide
/-- PW-1, PW-2. -/
theorem test_palwr :
    field (exec (.palwr 0x023F3F3F) (st .idle .setup quietPins)) (fun t => (t.palEntry 2, t.palEntry 1)) =
      some (0x00FCFCFC, 0) ∧
    field (exec (.palwr 0x0FFF0000) (st .idle .setup quietPins)) (fun t => t.palEntry 15) = some 0x00FC0000 := by decide
/-- PW-3: IDX 16 is ignored. -/
theorem test_palwr_out_of_range :
    got (exec (.palwr 0x10FFFFFF) (st .idle .setup quietPins)) = some (st .idle .setup quietPins) := by decide
theorem test_readPalwr :
    field (exec .readPalwr (respond 7 (st .idle .setup quietPins))) (fun t => t.rdata) = some 0 := by decide
/-- PW-1's read, at the last entry. -/
theorem test_readPal :
    field (exec (.readPal 15) { st .idle .setup quietPins with pal := (List.replicate 16 0).set 15 0x00FC0000 })
      (fun t => t.rdata) = some 0x00FC0000 := by decide
/-- HI-11. -/
theorem test_writePal :
    got (exec (.writePal 3 0x12345678) (st .idle .setup quietPins)) = some (st .idle .setup quietPins) := by decide
/-- HI-5. -/
theorem test_reserved :
    field (exec (.reservedHi .read 0xFC 0) (respond 7 (st .idle .setup quietPins))) (fun t => t.rdata) = some 0 ∧
    got (exec (.reservedLo .write 0x10 9) (st .idle .setup quietPins)) = some (st .idle .setup quietPins) := by decide
theorem test_refusedAccess :
    exec (.refusedAccess (access true true 0x04 0)) (st .idle .setup quietPins) = .refused .accessNotAdmitted := rfl

/-! ### One step each -/

/-- L2.6, N = 2 and C = 3: (2, 2) is followed by (1, 0). -/
theorem test_delay_count :
    field (step (delaySt .slpWait 2 2)) (fun t => (t.seq, t.msLeft, t.pre)) = some (.slpWait, 1, 0) := by decide
/-- R162: the end of the delay after SWRESET. -/
theorem test_delay_end :
    field (step (delaySt .rstWait 0 0)) (fun t => (t.seq, t.cursor)) = some (.tblDecode, 0) := by decide
/-- L1.1, step 1 of the table. -/
theorem test_step_decode :
    field (step (decodeSt 0 quietPins)) (fun t => (t.frmOpc, t.frmLen, t.frmBase, t.cursor)) =
      some (0xC5, 2, 2, 4) := by decide
/-- R131: the table's end is Malformed, the sentinel before it is End (L2.1, priority). -/
theorem test_step_decode_end :
    field (step (decodeSt 8 quietPins)) (fun t => t.statusWord) = some 0x26 ∧
    field (step (decodeSt 7 quietPins)) (fun t => t.seq) = some .slpTx := by decide
/-- L2.5: a store in the cycle of the byte's handshake is seen. -/
theorem test_step_torn :
    field (step (streamSt .rlPixTx .data [0x10, 0x11, 0x12, 0x13, 0x14]
      { pins true false false with stores := [(5, 0x55)] })) (fun t => (t.sent, t.txs)) =
        some ([0x10, 0x11, 0x12, 0x13, 0x14, 0x55], .wait) := by decide
/-- HI-9: a PACING write is seen from the next cycle on; the loop top of this cycle reads the old value (R79). -/
theorem test_step_pacing_write :
    field (step (st .rlTop .setup (busPins (access true false 0x08 5)))) (fun t => (t.msLeft, t.pacingMs)) =
      some (2, 5) := by decide
/-- R200: a STOP written in the cycle of the loop top is seen at the next one. -/
theorem test_step_stop_late :
    field (step (st .rlTop .setup (busPins (access true false 0x00 2)))) (fun t => (t.seq, t.cancelReq)) =
      some (.rlPace, true) := by decide
/-- HI-20: `rst` discards the cycle's write. -/
theorem test_step_reset :
    field (step (st .rlPace .setup { busPins (access true false 0x08 5) with rst := true }))
      (fun t => (t.seq, t.pacingMs)) = some (.idle, 2) := by decide
/-- R79: a STATUS read returns the value at the start of the cycle. -/
theorem test_step_read :
    field (step (st .rlTop .setup (busPins (access false true 0x04 0)))) (fun t => (t.rdata, t.seq)) =
      some (0x4, .rlPace) := by decide

/-! ### The parameters -/

/-- The reference configuration of R5: 230400 bytes of Pixel Buffer, 18 address bits, a table of 32 bytes, 16 entries. -/
theorem test_reference_parameters :
    Params.reference.fbBytes = 230400 ∧ Params.reference.fbAw = 18 ∧ Params.reference.txIdxWidth = 18 ∧
    Params.reference.tableLen = 32 ∧ Params.reference.palEntries = 16 := by decide
/-- R5: FB_AW by its formula, at a power of two and one above it. -/
theorem test_fbAw_edges :
    { par with width := 256, height := 256, bpp := 4 }.fbAw = 18 ∧
    { par with width := 262145, height := 1, bpp := 1 }.fbAw = 19 ∧
    { par with width := 1, height := 1, bpp := 1 }.fbAw = 0 := by decide

/-- An instance with a palette of four entries. -/
def fourSt : State := { st .idle .setup quietPins with par := { par with palEntries := 4 }, pal := List.replicate 4 0 }
/-- R241, R5: IDX 3 is the last entry of it, IDX 4 is ignored. -/
theorem test_palwr_four_entries :
    field (exec (.palwr 0x03000001) fourSt) (fun t => t.pal) = some [0, 0, 0, 4] ∧
    got (exec (.palwr 0x04000001) fourSt) = some fourSt := by decide

/-! ### A check that decides the invariant on a small state -/

/-- The clauses of `State.TxInv` and `State.SentInv`. -/
def txCheck (s : State) : Bool :=
  decide (txMode s.seq = none ∨ s.txs = .setup → s.sent = []) &&
  match txMode s.seq with
  | none => true
  | some m =>
    decide (s.txs = .stream → s.dc = m ∧ s.txIdx < s.txLen ∧ s.sent.length = s.txIdx) &&
    decide (s.txs = .wait → s.dc = m ∧ s.sent.length = s.txLen) &&
    decide (s.seq ≠ .rlPixTx → s.txs ≠ .setup → ∀ j, j < s.sent.length → s.sent[j]? = s.txByte j)

/-- All clauses of `State.Inv`, for an empty log. -/
def invCheck (s : State) : Bool :=
  s.par.wf && decide (s.txIdx < 2 ^ s.par.txIdxWidth) && decide (s.pal.length = s.par.palEntries) &&
  s.pal.all (fun w => decide (w &&& 0xFF030303 = 0)) &&
  Memory.wf s.fb && Memory.below s.par.fbBytes s.fb && decide (s.pre < s.par.cyclesPerMs) &&
  decide (s.cursor.toNat ≤ s.par.tableLen) &&
  decide (s.seq = .tblOpcTx ∨ s.seq = .tblArgTx →
    1 ≤ s.frmLen.toNat ∧ s.frmBase.toNat + s.frmLen.toNat = s.cursor.toNat) &&
  txCheck s && decide (s.err ≠ .none ↔ s.seq = .initFailed ∨ s.seq = .rlFailed) &&
  decide (s.seq = .rlFailed → s.err = .transport) && decide (s.seq = .stopped → s.cancelReq = true) &&
  decide (s.log = [])

theorem inv_of_check {s : State} (h : invCheck s = true) : s.Inv := by
  simp only [invCheck, txCheck, Bool.and_eq_true, decide_eq_true_eq, List.all_eq_true] at h
  obtain ⟨⟨⟨⟨⟨⟨⟨⟨⟨⟨⟨⟨⟨h1, i1⟩, i2⟩, h2⟩, h3⟩, h4⟩, h5⟩, h6⟩, h7⟩, h8, h9⟩, h10⟩, h11⟩, h12⟩, h13⟩ := h
  refine ⟨h1, i1, i2, h2, h3, h4, h5, h6, h7, ⟨h8, ?_, ?_⟩, ?_, h10, h11, h12, by rw [h13]; simp⟩
  all_goals intro m hm; rw [hm] at h9; simp only [Bool.and_eq_true, decide_eq_true_eq] at h9
  · exact h9.1.1
  · exact h9.1.2
  · exact h9.2

/-! ### Witnesses: a state and operands that meet the hypotheses of each statement, at the edges of its clauses -/

/-- DecodeOfEncodeIsInstruction: the longest group, and a frame that has no name. -/
theorem wit_DecodeOfEncode :
    (Instr.tblGroup 0x00 [0x00]).wellFormed = true ∧ (Instr.tblCmd 0xC5 [0x3E]).wellFormed = true ∧
    (Instr.malformed (some 1)).wellFormed = true ∧ (Instr.start 3).wellFormed = true ∧
    (Instr.reservedHi .read 0xFC 0).wellFormed = true ∧ (Instr.reservedLo .write 0x3C 0).wellFormed = true ∧
    (Instr.refusedAccess (access true true 0x04 0)).wellFormed = true := by decide

/-- HostAccessEncodesBack. -/
theorem wit_HostAccessEncodesBack : (access true false 0x7C 5).present = true := by decide

/-- StepRunsFetchedInstruction: no access, a write, a read, and a fetched instruction. -/
theorem wit_StepRuns_idle_bus :
    (decodeSt 0 quietPins).pins.rst = false ∧
    (∀ c ∈ (decodeSt 0 quietPins).pins.stores, c.1 < (decodeSt 0 quietPins).par.fbBytes) ∧
    hostInstr (decodeSt 0 quietPins) = none ∧
    fetch (decodeSt 0 quietPins).opened = .instr (.tblGroup 0xC5 [0x3E, 0x28]) := by decide
theorem wit_StepRuns_write :
    hostInstr (st .idle .setup (busPins (access true false 0x00 1))) = some (.start 1) ∧
    busWrite (st .idle .setup (busPins (access true false 0x00 1))).pins.bus = true := by decide
theorem wit_StepRuns_read :
    hostInstr (st .idle .setup (busPins (access false true 0x04 0))) = some .readStatus ∧
    busWrite (st .idle .setup (busPins (access false true 0x04 0))).pins.bus = false := by decide
theorem wit_StepRuns_last_store :
    ∀ c ∈ (st .rlPixTx .setup { quietPins with stores := [(5, 0x55)] }).pins.stores, c.1 < par.fbBytes := by decide

/-- BlockResetDiscardsTheCycle, with a write and a store in the cycle. -/
def resetPins : Pins := { busPins (access true false 0x08 5) with rst := true, stores := [(5, 0x55)] }
theorem wit_BlockReset :
    (st .rlPixTx .stream resetPins).pins.rst = true ∧
    Pins.dutiful (st .rlPixTx .stream resetPins).pins (st .rlPixTx .stream resetPins).par.fbBytes :=
  ⟨rfl, by unfold Pins.dutiful; decide⟩

/-- SentinelAndMalformedComplete. -/
theorem wit_SentinelAndMalformed : (decodeSt 8 quietPins).seq = .tblDecode := rfl

/-- GroupLatchesFrameAndAdvances, a group that ends where the table ends. -/
theorem wit_GroupLatches :
    (decodeSt 5 quietPins).par.wf = true ∧ 1 ≤ [(0x48 : Byte)].length ∧ [(0x48 : Byte)].length ≤ 255 ∧
    (decodeSt 5 quietPins).cursor.toNat + [(0x48 : Byte)].length + 2 ≤ (decodeSt 5 quietPins).par.tableLen := by decide

/-- DecodeStepFollowsTheTable: at the table's end; the sentinel in its last byte; a group that overruns by one byte; a
group that fits exactly. -/
theorem wit_DecodeStep_end :
    (decodeSt 8 quietPins).par.wf = true ∧ (decodeSt 8 quietPins).seq = .tblDecode ∧
    (decodeSt 8 quietPins).par.tableLen ≤ (decodeSt 8 quietPins).cursor.toNat := by decide
theorem wit_DecodeStep_sentinel :
    (decodeSt 7 quietPins).tableRead (decodeSt 7 quietPins).cursor.toNat = some 0 := by decide
/-- A table whose second group ends with the table or overruns it by one byte. -/
def tableSt (table : List Byte) (cursor : BitVec 16) : State :=
  { decodeSt cursor quietPins with par := { par with initTable := table } }
theorem wit_DecodeStep_overrun :
    (tableSt [0x01, 0xC0, 0x23, 0x02, 0xC5, 0x3E] 3).par.wf = true ∧
    (tableSt [0x01, 0xC0, 0x23, 0x02, 0xC5, 0x3E] 3).tableRead 3 = some 2 ∧
    (tableSt [0x01, 0xC0, 0x23, 0x02, 0xC5, 0x3E] 3).par.tableLen < 3 + 2 + 2 := by decide
theorem wit_DecodeStep_fits :
    (tableSt [0x01, 0xC0, 0x23] 0).par.wf = true ∧ (tableSt [0x01, 0xC0, 0x23] 0).tableRead 0 = some 1 ∧
    0 + 1 + 2 ≤ (tableSt [0x01, 0xC0, 0x23] 0).par.tableLen := by decide

/-- SetupDrivesModeSelect, a fixed command, an opcode and arguments. -/
theorem wit_SetupDrives :
    Instr.swreset.sends (st .rstTx .setup quietPins) = some (.command, [0x01]) ∧
    (Instr.vmctr1 0x3E 0x28).sends (st .tblOpcTx .setup quietPins) = some (.command, [0xC5]) ∧
    (Instr.vmctr1 0x3E 0x28).sends (st .tblArgTx .setup quietPins) = some (.data, [0x3E, 0x28]) := by decide

/-- HandshakeSendsTheIndexedByte: held, the last byte, not the last byte, and a response that does not come. -/
theorem wit_Handshake_stream :
    (streamSt .tblArgTx .data [] (pins true false false)).txs = .stream ∧
    [(0x3E : Byte), 0x28][(streamSt .tblArgTx .data [] (pins true false false)).txIdx]? = some 0x3E ∧
    (streamSt .tblArgTx .data [] (pins true false false)).pins.txReady = true ∧
    (streamSt .tblArgTx .data [] (pins true false false)).txIdx + 1 ≠ 2 := by decide
theorem wit_Handshake_last :
    [(0x3E : Byte), 0x28][(streamSt .tblArgTx .data [0x3E] (pins true false false)).txIdx]? = some 0x28 ∧
    (streamSt .tblArgTx .data [0x3E] (pins true false false)).txIdx + 1 = 2 := by decide
theorem wit_Handshake_held :
    (streamSt .tblArgTx .data [0x3E] (pins false false false)).pins.txReady = false ∧
    (waitSt .tblArgTx .data [0x3E, 0x28] (pins true false false)).pins.rspValid = false := by decide

/-- A response of the transport in TX_WAIT. -/
def answered (q : Seq) (m : Mode) (bytes : List Byte) (err : Bool) : State := waitSt q m bytes (pins false true err)

/-- SwresetCompletes, SlpoutCompletes, DisponCompletes, RamwrCompletes: ok and err. -/
theorem wit_Swreset (err : Bool) :
    (answered .rstTx .command [0x01] err).Inv ∧ (answered .rstTx .command [0x01] err).pins.rspValid = true :=
  ⟨inv_of_check (by cases err <;> decide), rfl⟩
theorem wit_Slpout (err : Bool) :
    (answered .slpTx .command [0x11] err).Inv ∧ (answered .slpTx .command [0x11] err).pins.rspErr = err :=
  ⟨inv_of_check (by cases err <;> decide), rfl⟩
theorem wit_Dispon (err : Bool) :
    (answered .donTx .command [0x29] err).Inv ∧ (answered .donTx .command [0x29] err).pins.rspErr = err :=
  ⟨inv_of_check (by cases err <;> decide), rfl⟩
theorem wit_Ramwr (err : Bool) :
    (answered .rlCmdTx .command [0x2C] err).Inv ∧ (answered .rlCmdTx .command [0x2C] err).pins.rspErr = err :=
  ⟨inv_of_check (by cases err <;> decide), rfl⟩

/-- TableCommandOpcodeCompletes and TableCommandArgumentsComplete. -/
theorem wit_TableOpcode (err : Bool) :
    (answered .tblOpcTx .command [0xC5] err).Inv ∧
    fetch (answered .tblOpcTx .command [0xC5] err) = .instr (.vmctr1 0x3E 0x28) ∧
    (Instr.vmctr1 0x3E 0x28).frameOf = some (0xC5, [0x3E, 0x28]) ∧
    (answered .tblOpcTx .command [0xC5] err).pins.rspErr = err :=
  ⟨inv_of_check (by cases err <;> decide), by cases err <;> decide, rfl, rfl⟩
theorem wit_TableArguments (err : Bool) :
    (answered .tblArgTx .data [0x3E, 0x28] err).Inv ∧
    fetch (answered .tblArgTx .data [0x3E, 0x28] err) = .instr (.vmctr1 0x3E 0x28) ∧
    (answered .tblArgTx .data [0x3E, 0x28] err).pins.rspErr = err :=
  ⟨inv_of_check (by cases err <;> decide), by cases err <;> decide, rfl⟩
/-- Every table command can be the latched frame: the named ones and one with no name. -/
def frameSt (q : Seq) (x : Txs) (table : List Byte) (opc : Byte) (n : BitVec 8) (sent : List Byte) : State :=
  { waitSt q (if q = .tblArgTx then .data else .command) sent (pins false true false) with
    txs := x, par := { par with initTable := table }, frmOpc := opc, frmLen := n, frmBase := 2,
    cursor := BitVec.ofNat 16 (n.toNat + 2) }
/-- The table of one frame, and the state that awaits the response to its opcode. -/
def oneFrame (opc : Byte) (args : List Byte) : State :=
  frameSt .tblOpcTx .wait (BitVec.ofNat 8 args.length :: opc :: (args ++ [0x00])) opc (BitVec.ofNat 8 args.length) [opc]
theorem wit_TableOpcode_one_argument :
    fetch (oneFrame 0xC0 [0x23]) = .instr (.pwctr1 0x23) ∧ fetch (oneFrame 0xC1 [0x10]) = .instr (.pwctr2 0x10) ∧
    fetch (oneFrame 0xC7 [0x86]) = .instr (.vmctr2 0x86) ∧ fetch (oneFrame 0x36 [0x40]) = .instr (.madctl 0x40) ∧
    fetch (oneFrame 0x37 [0x00]) = .instr (.vscrsadd 0x00) ∧ fetch (oneFrame 0x3A [0x66]) = .instr (.pixfmt 0x66) := by
  decide
theorem wit_TableOpcode_more_arguments :
    fetch (oneFrame 0xB1 [0x00, 0x18]) = .instr (.frmctr1 0x00 0x18) ∧
    fetch (oneFrame 0xB6 [0x08, 0x82, 0x27]) = .instr (.dfunctr 0x08 0x82 0x27) ∧
    fetch (oneFrame 0x00 [0x11, 0x22]) = .instr (.tblCmd 0x00 [0x11, 0x22]) := by decide
theorem wit_TableOpcode_inv :
    (oneFrame 0xC0 [0x23]).Inv ∧ (oneFrame 0xC1 [0x10]).Inv ∧ (oneFrame 0xC7 [0x86]).Inv ∧
    (oneFrame 0x36 [0x40]).Inv ∧ (oneFrame 0x37 [0x00]).Inv ∧ (oneFrame 0x3A [0x66]).Inv ∧
    (oneFrame 0xB1 [0x00, 0x18]).Inv ∧ (oneFrame 0xB6 [0x08, 0x82, 0x27]).Inv ∧ (oneFrame 0x00 [0x11, 0x22]).Inv := by
  refine ⟨?_, ?_, ?_, ?_, ?_, ?_, ?_, ?_, ?_⟩ <;> exact inv_of_check (by decide)

/-- LatchedFrameIsFetched, in both states. -/
theorem wit_LatchedFrame :
    (st .tblOpcTx .setup quietPins).Inv ∧ (st .tblArgTx .setup quietPins).Inv :=
  ⟨inv_of_check (by decide), inv_of_check (by decide)⟩

/-- NamedCommandsActAsAnyFrame. -/
theorem wit_NamedCommands : (Instr.dfunctr 0x08 0x82 0x27).frameOf = some (0xB6, [0x08, 0x82, 0x27]) := rfl

/-- StepHandsOverThePortByte: the first and the last byte, accepted and held. -/
theorem wit_StepHandsOver (ready : Bool) :
    (streamSt .tblArgTx .data [0x3E] (pins ready false false)).Inv ∧
    txMode (streamSt .tblArgTx .data [0x3E] (pins ready false false)).seq = some .data ∧
    (∃ t, step (streamSt .tblArgTx .data [0x3E] (pins ready false false)) = .next t) :=
  ⟨inv_of_check (by cases ready <;> decide), rfl, next_of_got (by cases ready <;> decide)⟩
theorem wit_StepHandsOver_pixel :
    (streamSt .rlPixTx .data [0x10, 0x11, 0x12, 0x13, 0x14] (pins true false false)).Inv ∧
    ∃ t, step (streamSt .rlPixTx .data [0x10, 0x11, 0x12, 0x13, 0x14] (pins true false false)) = .next t :=
  ⟨inv_of_check (by decide), next_of_got (by decide)⟩

/-- LogGainsTheStatesTransaction: a step that logs and a step that does not. -/
theorem wit_LogGains (err : Bool) :
    (answered .tblArgTx .data [0x3E, 0x28] err).Inv ∧
    ∃ t, step (answered .tblArgTx .data [0x3E, 0x28] err) = .next t :=
  ⟨inv_of_check (by cases err <;> decide), next_of_got (by cases err <;> decide)⟩
theorem wit_LogGains_not :
    (decodeSt 0 quietPins).Inv ∧ ∃ t, step (decodeSt 0 quietPins) = .next t :=
  ⟨inv_of_check (by decide), next_of_got (by decide)⟩

/-- IdealTransactionTakesLengthPlusTwo: one byte, and a frame of the Pixel Buffer. -/
def idealSt (q : Seq) (k : Nat) : State := { st q .setup quietPins with inputs := List.replicate k (pins true true false) }
theorem wit_Ideal_pins : Pins.ideal (pins true true false) := by unfold Pins.ideal; decide
theorem wit_Ideal_command :
    (idealSt .rstTx 3).Inv ∧ (idealSt .rstTx 3).txs = .setup ∧
    (idealSt .rstTx 3).txLen + 2 ≤ (idealSt .rstTx 3).inputs.length :=
  ⟨inv_of_check (by decide), rfl, by decide⟩
theorem wit_Ideal_pixels :
    (idealSt .rlPixTx 8).Inv ∧ txMode (idealSt .rlPixTx 8).seq = some .data ∧
    (idealSt .rlPixTx 8).txLen + 2 ≤ (idealSt .rlPixTx 8).inputs.length ∧
    ∀ p ∈ (idealSt .rlPixTx 8).inputs.take ((idealSt .rlPixTx 8).txLen + 2), Pins.ideal p :=
  ⟨inv_of_check (by decide), rfl, by decide, fun p hp => by
    have h : p = pins true true false := List.eq_of_mem_replicate (List.mem_of_mem_take hp)
    rw [h]; exact wit_Ideal_pins⟩

/-- OnlyTheResponseEndsATransaction: streaming, and waiting for a response that does not come. -/
theorem wit_OnlyTheResponse :
    (∃ t, step (streamSt .slpTx .command [] (pins true true true)) = .next t) ∧
    (∃ t, step (waitSt .slpTx .command [0x11] (pins true false true)) = .next t) ∧
    (waitSt .slpTx .command [0x11] (pins true false true)).pins.rspValid = false :=
  ⟨next_of_got (by decide), next_of_got (by decide), rfl⟩

/-- WaitStatesCountDown: the end, the end of a millisecond, and within one. -/
theorem wit_WaitStates :
    (delaySt .rstWait 0 0).seq.waiting = true ∧ (delaySt .rstWait 0 0).msLeft = 0 ∧
    (delaySt .rlPace 1 2).msLeft ≠ 0 ∧ (delaySt .rlPace 1 2).pre + 1 = (delaySt .rlPace 1 2).par.cyclesPerMs ∧
    (delaySt .donWait 65535 1).pre + 1 ≠ (delaySt .donWait 65535 1).par.cyclesPerMs := by decide
theorem wit_WaitStates_failure :
    { delaySt .rstWait 0 0 with pendErr := true }.pendErr = true ∧ (delaySt .rstWait 0 0).pendErr = false := by decide

/-- WaitLastsExactly: N = 2 and C = 3 (L2.6), and N = 0. -/
def longDelay (ms : BitVec 16) (k : Nat) : State := { delaySt .slpWait ms 0 with inputs := List.replicate k quietPins }
theorem wit_WaitLasts :
    (longDelay 2 7).Inv ∧ (longDelay 2 7).seq.waiting = true ∧ (longDelay 2 7).pre = 0 ∧
    (longDelay 2 7).msLeft.toNat * (longDelay 2 7).par.cyclesPerMs + 1 ≤ (longDelay 2 7).inputs.length ∧
    ∀ p ∈ (longDelay 2 7).inputs, p.rst = false ∧ Pins.dutiful p (longDelay 2 7).par.fbBytes :=
  ⟨inv_of_check (by decide), rfl, rfl, by decide, fun p hp => by
    have h : p = quietPins := List.eq_of_mem_replicate hp
    rw [h]; exact ⟨rfl, by unfold Pins.dutiful; decide⟩⟩
theorem wit_WaitLasts_zero :
    (longDelay 0 1).Inv ∧
    (longDelay 0 1).msLeft.toNat * (longDelay 0 1).par.cyclesPerMs + 1 ≤ (longDelay 0 1).inputs.length :=
  ⟨inv_of_check (by decide), by decide⟩

/-- LoopTopChecksCancellation. -/
theorem wit_LoopTop :
    (st .rlTop .setup quietPins).seq = .rlTop ∧ (st .rlTop .setup quietPins).cancelReq = false ∧
    { st .rlTop .setup quietPins with cancelReq := true }.cancelReq = true := by decide

/-- TimersChangeOnlyInWaits: a step that holds the timers, and an entry to a delay. -/
theorem wit_Timers :
    (st .rlTop .setup quietPins).seq.waiting = false ∧ (∃ t, step (st .rlTop .setup quietPins) = .next t) ∧
    (∃ t, step (decodeSt 0 quietPins) = .next t) :=
  ⟨rfl, next_of_got (by decide), next_of_got (by decide)⟩

/-- PixelReaderSendsTheBuffer: the first byte, the last byte, ok and err. -/
theorem wit_Pixel_first :
    (streamSt .rlPixTx .data [] (pins true false false)).Inv ∧
    (streamSt .rlPixTx .data [] (pins true false false)).txIdx + 1 ≠ par.fbBytes :=
  ⟨inv_of_check (by decide), by decide⟩
theorem wit_Pixel_last :
    (streamSt .rlPixTx .data [0x10, 0x11, 0x12, 0x13, 0x14] (pins true false false)).Inv ∧
    (streamSt .rlPixTx .data [0x10, 0x11, 0x12, 0x13, 0x14] (pins true false false)).txIdx + 1 = par.fbBytes :=
  ⟨inv_of_check (by decide), by decide⟩
theorem wit_Pixel_response (err : Bool) :
    (answered .rlPixTx .data [0x10, 0x11, 0x12, 0x13, 0x14, 0x15] err).Inv ∧
    (answered .rlPixTx .data [0x10, 0x11, 0x12, 0x13, 0x14, 0x15] err).pins.rspErr = err :=
  ⟨inv_of_check (by cases err <;> decide), rfl⟩

/-- StartBeginsBringUpOnlyInIdle: with and without resources, and elsewhere. -/
theorem wit_Start :
    (3 : Word).getLsbD 0 = true ∧ (st .idle .setup quietPins).seq = .idle ∧
    (st .idle .setup quietPins).pins.resOk = true ∧
    (st .idle .setup { quietPins with resOk := false }).pins.resOk = false ∧ (failedSt quietPins).seq ≠ .idle := by decide

/-- CtrlWritesWithoutStart. -/
theorem wit_Ctrl :
    (2 : Word).getLsbD 0 = false ∧ (2 : Word).getLsbD 1 = true ∧ (0xFFFFFFFC : Word).getLsbD 0 = false ∧
    (0xFFFFFFFC : Word).getLsbD 1 = false := by decide

/-- ReservedAccessesReadZero, the four ends of the two ranges. -/
theorem wit_Reserved :
    (0x10 : BitVec 8).toNat % 4 = 0 ∧ 0x10 ≤ (0x10 : BitVec 8).toNat ∧ (0x3C : BitVec 8).toNat ≤ 0x3C ∧
    (0x80 : BitVec 8).toNat % 4 = 0 ∧ 0x80 ≤ (0x80 : BitVec 8).toNat ∧ 0x80 ≤ (0xFC : BitVec 8).toNat := by decide

/-- PalwrWritesOneEntry: IDX 15 and IDX 16. -/
theorem wit_Palwr :
    (st .idle .setup quietPins).Inv ∧
    (0x0FFF0000 : Word).toNat / 2 ^ 24 < par.palEntries ∧ par.palEntries ≤ (0x10FFFFFF : Word).toNat / 2 ^ 24 ∧
    14 ≠ (0x0FFF0000 : Word).toNat / 2 ^ 24 := ⟨inv_of_check (by decide), by decide⟩

/-- PaletteReadReturnsEntry: the last entry, and an offset without an entry. -/
theorem wit_PaletteRead :
    (st .idle .setup quietPins).pal[(15 : Fin 16).val]? = some 0 ∧ fourSt.pal.length ≤ (4 : Fin 16).val := by decide

/-- ConvertIsInjectiveOnSixBits: two inputs with one result are the same inputs. -/
theorem wit_Convert :
    (0x3F : Word).toNat < 64 ∧ (0x00 : Word).toNat < 64 ∧
    convert 0x3F 0x00 0x3F = convert 0x3F 0x00 0x3F ∧ convert 0x3F 0x00 0x3F ≠ convert 0x3F 0x01 0x3F := by decide

/-- RefusedAccessStopsTheRun: both directions, a narrow read, a misaligned read. -/
theorem wit_Refused_both :
    (st .idle .setup (busPins (access true true 0x04 0))).pins.bus.wr = true ∧
    (st .idle .setup (busPins (access true true 0x04 0))).pins.bus.rd = true := by decide
theorem wit_Refused_other :
    (st .idle .setup (busPins { access false true 0x04 0 with narrow := true })).pins.bus.narrow = true ∧
    (st .idle .setup (busPins (access false true 0x06 0))).pins.bus.rd = true ∧
    (st .idle .setup (busPins (access false true 0x06 0))).pins.bus.addr.toNat % 4 ≠ 0 ∧
    ∀ c ∈ (st .idle .setup (busPins (access false true 0x06 0))).pins.stores, c.1 < par.fbBytes := by decide

/-- SequencerLeavesHostSide and HostOperationsLeaveEngine. -/
theorem wit_SequencerLeaves :
    Instr.slpout.ofSequencer = true ∧
    ∃ t, exec .slpout (answered .slpTx .command [0x11] false) = .next t :=
  ⟨rfl, next_of_got (by decide)⟩
theorem wit_HostOperationsLeave :
    (Instr.palwr 0x023F3F3F).ofSequencer = false ∧ (∀ w, Instr.palwr 0x023F3F3F ≠ .start w) ∧
    (∀ w, Instr.palwr 0x023F3F3F ≠ .stop w) ∧ (∀ w, Instr.palwr 0x023F3F3F ≠ .writePacing w) ∧
    ∃ t, exec (.palwr 0x023F3F3F) (failedSt quietPins) = .next t := by
  refine ⟨rfl, ?_, ?_, ?_, next_of_got (by decide)⟩ <;> intro w h <;> cases h

/-- InvariantAtReset. -/
theorem wit_InvariantAtReset : par.wf = true := by decide

/-- EveryStepKeepsInvariant: a busy cycle, with a store and a host write. -/
def busyPins : Pins := { busPins (access true false 0x0C 0x023F3F3F) with txReady := true, stores := [(5, 0x55)] }
theorem wit_EveryStep :
    (streamSt .rlPixTx .data [0x10, 0x11] busyPins).Inv ∧
    ∃ t, step (streamSt .rlPixTx .data [0x10, 0x11] busyPins) = .next t :=
  ⟨inv_of_check (by decide), next_of_got (by decide)⟩

/-- DutifulStepsGoOn. -/
theorem wit_Dutiful :
    (streamSt .rlPixTx .data [0x10, 0x11] busyPins).Inv ∧
    Pins.dutiful (streamSt .rlPixTx .data [0x10, 0x11] busyPins).pins par.fbBytes :=
  ⟨inv_of_check (by decide), by unfold Pins.dutiful; decide⟩

/-- TerminalStatesHold: START in a failed state. -/
theorem wit_Terminal :
    (failedSt (busPins (access true false 0x00 3))).seq.terminal = true ∧
    (failedSt (busPins (access true false 0x00 3))).pins.rst = false ∧
    ∃ t, step (failedSt (busPins (access true false 0x00 3))) = .next t :=
  ⟨rfl, rfl, next_of_got (by decide)⟩

/-- ErrorCodeIsSetOnce: an error that is raised, and a state that holds one. -/
theorem wit_ErrorCode_set :
    (decodeSt 8 quietPins).Inv ∧ (field (step (decodeSt 8 quietPins)) (fun t => t.err)) = some .malformedTable :=
  ⟨inv_of_check (by decide), by decide⟩
theorem wit_ErrorCode_kept :
    (failedSt (busPins (access true false 0x00 1))).Inv ∧ (failedSt (busPins (access true false 0x00 1))).err ≠ .none ∧
    ∃ t, step (failedSt (busPins (access true false 0x00 1))) = .next t :=
  ⟨inv_of_check (by decide), by decide, next_of_got (by decide)⟩

/-- CancellationIsSticky. -/
theorem wit_Cancellation :
    (st .rlPace .setup (busPins (access true false 0x00 2))).pins.rst = false ∧
    ∃ t, step (st .rlPace .setup (busPins (access true false 0x00 2))) = .next t :=
  ⟨rfl, next_of_got (by decide)⟩

/-- ModeSelectChangesOnlyInSetup: a cycle in which `dc` changes. -/
theorem wit_ModeSelect :
    field (step (st .tblArgTx .setup quietPins)) (fun t => t.dc) = some .data ∧
    (st .tblArgTx .setup quietPins).dc = .command := by decide

/-- HostAccessDoesNotDisturbEngine: a START against no access. -/
theorem wit_HostAccess :
    (st .slpTx .stream quietPins).seq ≠ .idle ∧
    (∃ t, step { st .slpTx .stream quietPins with
      inputs := { pins true false false with bus := access true false 0x00 3 } :: [] } = .next t) ∧
    (∃ u, step { st .slpTx .stream quietPins with
      inputs := { pins true false false with bus := access false false 0x00 0 } :: [] } = .next u) :=
  ⟨by decide, next_of_got (by decide), next_of_got (by decide)⟩

/-- PaletteDoesNotReachTheTransport and InitTableNeverChanges: two steps of a pixel transaction. -/
def twoSteps : State :=
  { streamSt .rlPixTx .data [] quietPins with inputs := [pins true false false, pins true false false] }
theorem wit_Palette :
    (∃ t, core.run 2 twoSteps = .next t) ∧
    ∃ u, core.run 2 { twoSteps with pal := List.replicate 16 0x00FCFCFC } = .next u :=
  ⟨next_of_got (o := core.run 2 twoSteps) (by decide),
    next_of_got (o := core.run 2 { twoSteps with pal := List.replicate 16 0x00FCFCFC }) (by decide)⟩

/-- OnlyTheWriterChangesTheBuffer. -/
theorem wit_OnlyTheWriter : ∃ t, step (streamSt .rlPixTx .data [0x10, 0x11] busyPins) = .next t :=
  next_of_got (by decide)

/-- EqualBuffersAreEqualData: two stores in either order. -/
theorem wit_EqualBuffers :
    Memory.wf (Memory.writeAll [] [(1, 7), (3, 9)]) = true ∧ Memory.wf (Memory.writeAll [] [(3, 9), (1, 7)]) = true ∧
    ∀ x, Memory.read? (Memory.writeAll [] [(1, 7), (3, 9)]) x = Memory.read? (Memory.writeAll [] [(3, 9), (1, 7)]) x :=
  ⟨by decide, by decide, fun _ => rfl⟩

/-- StatusValuesThatOccur: PHASE 5 and PHASE 7. -/
theorem wit_StatusValues :
    { st .stopped .setup quietPins with cancelReq := true }.Inv ∧
    { st .rlFailed .setup quietPins with err := .transport }.Inv :=
  ⟨inv_of_check (by decide), inv_of_check (by decide)⟩

/-- OutputsIdleOutsideTheStream: in the stream of the framebuffer reader, and outside a stream. -/
theorem wit_Outputs :
    (streamSt .rlPixTx .data [0x10, 0x11] quietPins).Inv ∧
    (streamSt .rlPixTx .data [0x10, 0x11] quietPins).fbAddr = 2 ∧ (st .rlPixTx .setup quietPins).txs ≠ .stream ∧
    txMode (st .rlTop .stream quietPins).seq = none := ⟨inv_of_check (by decide), by decide⟩

end Sys2Proof.Tests
end

/-! The step as the chain of the agents' moves (R7; their order: log 1): what the host's two moves of a cycle are for no access, a read and a write, and the statement about the step. -/

namespace Sys2Proof.Proofs

open Sys2Proof.Machine Sys2Proof.Laws

/-! ### Chains -/

/-- Chains are associative. -/
theorem andThen_assoc (o : Result) (k l : State → Result) :
    andThen (andThen o k) l = andThen o fun s => andThen (k s) l := by
  cases o <;> rfl

/-- Two continuations give the same chain if they agree on the next state that the first link answers. -/
theorem andThen_congr {o : Result} {k l : State → Result} (h : ∀ t, o = .next t → k t = l t) :
    andThen o k = andThen o l := by
  cases o with
  | next t => exact h t rfl
  | fault _ => rfl
  | refused _ => rfl

/-! ### The host's moves of a cycle -/

/-- The host's operation depends on the pins alone. -/
theorem hostInstr_congr {s t : State} (h : t.pins = s.pins) : hostInstr t = hostInstr s := by
  unfold hostInstr; rw [h]

@[simp] theorem hostInstr_stored (s : State) : hostInstr s.stored = hostInstr s := hostInstr_congr (stored_pins s)

/-- Where there is no access there is no write. -/
theorem busWrite_of_hostInstr_none {s : State} (h : hostInstr s = none) : busWrite s.pins.bus = false := by
  rcases hostInstr_cases s with ⟨hp, -⟩ | ⟨-, -, hi⟩ | ⟨-, -, hi⟩
  · obtain ⟨hwr, -⟩ := Bool.or_eq_false_iff.mp hp
    simp [busWrite, hwr]
  · simp [hi] at h
  · simp [hi] at h

section
variable {run : Instr → State → Result} {s : State} {i : Instr}

theorem hostReadMove_of_none (h : hostInstr s = none) : hostReadMove run s = .next (respond 0 s) := by
  simp [hostReadMove, h]

theorem hostReadMove_of_write (h : hostInstr s = some i) (hw : busWrite s.pins.bus = true) :
    hostReadMove run s = .next (respond 0 s) := by
  simp [hostReadMove, h, hw]

theorem hostReadMove_of_read (h : hostInstr s = some i) (hw : busWrite s.pins.bus = false) :
    hostReadMove run s = run i (respond 0 s) := by
  simp [hostReadMove, h, hw]

theorem hostWriteMove_of_write (h : hostInstr s = some i) (hw : busWrite s.pins.bus = true) :
    hostWriteMove run s = run i s := by
  simp [hostWriteMove, h, hw]

/-- Without a write the end of the cycle changes nothing. -/
theorem hostWriteMove_of_not_write (hw : busWrite s.pins.bus = false) : hostWriteMove run s = .next s := by
  unfold hostWriteMove
  cases hostInstr s with
  | none => rfl
  | some i => simp [hw]

end

/-! ### The block's move -/

/-- The inputs of the cycle stay the same over the block's move. -/
theorem blockMove_pins {s t : State} (h : blockMove exec s = .next t) : t.pins = s.pins :=
  pins_congr (blockMove_hostSide h).inputs (blockMove_hostSide h).cycle

/-- Where the program counter selects an instruction, the block runs it (R22). -/
theorem blockMove_of_fetch {run : Instr → State → Result} {s : State} {i : Instr} (h : fetch s = .instr i) :
    blockMove run s = run i s := by
  simp [blockMove, h]

/-! ### The step -/

/-- A step without block reset: the host's read, the block's move, then `write`, where that is the host's move on every
state with the inputs of the cycle. The host's read keeps those inputs, and so does the block's move. -/
theorem step_eq_moves {s : State} {write : State → Result} (hr : s.pins.rst = false)
    (hs : ∀ c ∈ s.pins.stores, c.1 < s.par.fbBytes)
    (hw : ∀ t : State, t.pins = s.pins → hostWriteMove exec t = write t) :
    step s = andThen (hostReadMove exec s.stored) fun r => andThen (blockMove exec r) fun t =>
      andThen (write t) fun u => .next (clockTick u) := by
  unfold step cycle
  rw [writerMove_next hs, andThen_next]
  refine andThen_congr fun r hread => ?_
  obtain ⟨-, v, rfl⟩ := hostReadMove_cases hread
  have hpins : (respond v s.stored).pins = s.pins := rfl
  rw [resetOrWork, if_neg (by simp [hpins, hr]), workMove, andThen_assoc]
  refine andThen_congr fun t hblock => ?_
  rw [hw t ((blockMove_pins hblock).trans hpins)]

/-- Settles O7: the chain of `step_eq_moves`, with the host's two moves as they are for no access, a write and a
read, and `exec` of the fetched instruction for the block's move. The order of the moves is the model's (log 1). -/
theorem stepRunsFetchedInstruction : Obligations.StepRunsFetchedInstruction := by
  intro s hr hs
  have idle (hw : busWrite s.pins.bus = false) : ∀ t : State, t.pins = s.pins → hostWriteMove exec t = .next t :=
    fun t ht => hostWriteMove_of_not_write (by rw [ht]; exact hw)
  refine ⟨fun hn => ?noAccess, fun h hi hw => ?write, fun h hi hw => ?read, fun i => blockMove_of_fetch⟩
  case noAccess =>
    rw [step_eq_moves hr hs (idle (busWrite_of_hostInstr_none hn)), hostReadMove_of_none (by simpa using hn)]
    rfl
  case write =>
    have ends : ∀ t : State, t.pins = s.pins → hostWriteMove exec t = exec h t := fun t ht =>
      hostWriteMove_of_write ((hostInstr_congr ht).trans hi) (by rw [ht]; exact hw)
    rw [step_eq_moves hr hs ends, hostReadMove_of_write (by simpa using hi) (by simpa using hw)]
    rfl
  case read =>
    rw [step_eq_moves hr hs (idle hw), hostReadMove_of_read (by simpa using hi) (by simpa using hw)]
    rfl

end Sys2Proof.Proofs

/-! Every step keeps the block's invariant (10_state.md). The proof follows the agents' moves of a cycle. Inside a transaction the bytes handed over are counted and compared; every other transition of the sequencer starts from a state between two transactions (`Between`), so each of `goTo`, `goTx`, `goWait` and `raise` has one lemma. -/

namespace Sys2Proof.Proofs

open Sys2Proof.Machine Sys2Proof.Laws

/-! ### The converter's words -/

theorem laneWord_zero : laneWord 0 := by unfold laneWord; decide

theorem laneWord_or {a b : Word} (ha : laneWord a) (hb : laneWord b) : laneWord (a ||| b) := by
  unfold laneWord at *
  rw [BitVec.and_comm, BitVec.and_or_distrib_left, BitVec.and_comm _ a, BitVec.and_comm _ b, ha, hb]; rfl

/-- A six-bit lane lies where its mask does (R240). -/
theorem laneWord_shift (x : Word) {k : Nat} (hk : laneWord ((0x3F : Word) <<< k)) : laneWord ((x &&& 0x3F) <<< k) := by
  unfold laneWord at *
  rw [BitVec.shiftLeft_and_distrib, BitVec.and_assoc, hk]
  exact BitVec.and_zero

/-- The three lanes' masks (R240). -/
theorem laneWord_masks :
    laneWord ((0x3F : Word) <<< 18) ∧ laneWord ((0x3F : Word) <<< 10) ∧ laneWord ((0x3F : Word) <<< 2) := by
  unfold laneWord; decide

/-- The converter leaves the bits outside its three lanes 0 (R240). -/
theorem laneWord_convert (r g b : Word) : laneWord (convert r g b) := by
  obtain ⟨hr, hg, hb⟩ := laneWord_masks
  exact laneWord_or (laneWord_or (laneWord_shift r hr) (laneWord_shift g hg)) (laneWord_shift b hb)

/-! ### Moves that leave the engine alone -/

/-- The invariant depends on the engine, the palette and CANCEL_REQ alone. -/
theorem inv_of_engineSame {s t : State} (h : s.Inv) (he : s.EngineSame t) (hlen : t.pal.length = s.pal.length)
    (hpal : ∀ w ∈ t.pal, laneWord w) (hc : s.cancelReq = true → t.cancelReq = true) : t.Inv := by
  obtain ⟨par, seq, txs, txIdx, cursor, frmOpc, frmLen, frmBase, pendErr, msLeft, pre, dc, err, fb, sent, log⟩ := he
  obtain ⟨⟩ := s
  obtain ⟨⟩ := t
  subst par seq txs txIdx cursor frmOpc frmLen frmBase pendErr msLeft pre dc err fb sent log
  exact { h with
    paletteSize := hlen.trans h.paletteSize
    palette := hpal
    tx := { h.tx with }
    stoppedCancelled := fun hq => hc (h.stoppedCancelled hq) }

theorem inv_respond {s : State} (h : s.Inv) (w : Word) : (respond w s).Inv :=
  inv_of_engineSame h (by constructor <;> rfl) rfl h.palette id

theorem inv_clockTick {s : State} (h : s.Inv) : (clockTick s).Inv :=
  inv_of_engineSame h (by constructor <;> rfl) rfl h.palette id

/-- Outside the framebuffer reader a transaction has the same bytes whatever the Pixel Buffer holds (R152). -/
theorem txByte_stored {s : State} (hq : s.seq ≠ .rlPixTx) (i : Nat) : s.stored.txByte i = s.txByte i := by
  have hlen : s.stored.txLen = s.txLen := rfl
  unfold State.txByte
  rw [hlen, stored_seq]
  cases hs : s.seq
  case rlPixTx => exact absurd hs hq
  all_goals rfl

/-- The writer's stores keep the invariant, where they lie inside the Pixel Buffer (R60, R71). -/
theorem inv_stored {s : State} (h : s.Inv) (hst : ∀ c ∈ s.pins.stores, c.1 < s.par.fbBytes) : s.stored.Inv := by
  have hbytes : s.stored.SentInv := fun m hm hq hx j hj =>
    (h.sentBytes m hm hq hx j hj).trans (txByte_stored (s := s) hq j).symm
  exact { h with
    bufferForm := wf_writeAll _ h.bufferForm
    bufferSize := below_writeAll _ h.bufferSize hst
    tx := { h.tx with }
    sentBytes := hbytes }

/-! ### No byte handed over -/

/-- Where nothing has been handed over and no stream runs, the transaction unit keeps its part of the invariant. -/
theorem txInv_of_sent_nil {s : State} (hs : s.sent = []) (hx : txMode s.seq = none ∨ s.txs = .setup) : s.TxInv where
  outside := fun _ => hs
  stream := fun m hm hst => by simp [hm, hst] at hx
  wait := fun m hm hw => by simp [hm, hw] at hx

theorem sentInv_of_sent_nil {s : State} (hs : s.sent = []) : s.SentInv :=
  fun _ _ _ _ j hj => by simp [hs] at hj

/-! ### Block reset -/

/-- Block reset keeps the invariant: its values are those of R321, the buffer and the log stay. -/
theorem inv_blockReset {s : State} (h : s.Inv) : (blockReset s).Inv where
  params := h.params
  indexFits := Nat.two_pow_pos _
  paletteSize := List.length_replicate
  palette := fun w hw => by rw [List.eq_of_mem_replicate hw]; exact laneWord_zero
  bufferForm := h.bufferForm
  bufferSize := h.bufferSize
  prescaler := Nat.zero_lt_of_lt h.prescaler
  cursorInTable := Nat.zero_le _
  frame := by simp
  tx := txInv_of_sent_nil rfl (.inl rfl)
  sentBytes := sentInv_of_sent_nil rfl
  errFailed := by simp
  loopErr := by simp
  stoppedCancelled := by simp
  logForm := h.logForm

/-! ### Inside a transaction -/

/-- The ranges of the parameters (R5). -/
theorem params_ranges {p : Params} (h : p.wf = true) : p.tableLen ≤ 65535 ∧ 1 ≤ p.cyclesPerMs ∧ 1 ≤ p.fbBytes := by
  simp only [Params.wf, Bool.and_eq_true, decide_eq_true_eq] at h
  exact and_assoc.mp h

/-- Every transaction of R152 has a byte. -/
theorem txLen_pos {s : State} {m : Mode} (h : s.Inv) (hm : txMode s.seq = some m) : 0 < s.txLen := by
  obtain ⟨-, -, hfb⟩ := params_ranges h.params
  unfold State.txLen
  split
  next hq => exact (h.frame (.inr hq)).1
  next => exact hfb
  next => simp [hm]

/-- The TX_SETUP cycle keeps the invariant (R151, R153). -/
theorem inv_setup {s : State} {m : Mode} (h : s.Inv) (hm : txMode s.seq = some m) :
    State.Inv { s with dc := m, txs := .stream, txIdx := 0, sent := [] } := by
  have hlen : 0 < s.txLen := txLen_pos h hm
  exact { h with
    indexFits := Nat.two_pow_pos _
    tx := {
      outside := fun _ => rfl
      stream := fun k hk _ => ⟨Option.some.inj (hm.symm.trans hk), hlen, rfl⟩
      wait := fun _ _ hx => nomatch hx }
    sentBytes := sentInv_of_sent_nil rfl }

/-- Handing over the byte at TX_IDX keeps the bytes in ascending index order (R63, R151). -/
theorem sent_handOver {s : State} {m : Mode} (h : s.Inv) (hm : txMode s.seq = some m) (hx : s.txs = .stream) {b : Byte}
    (hb : s.txByte s.txIdx = some b) (hq : s.seq ≠ .rlPixTx) (j : Nat) (hj : j < (s.sent ++ [b]).length) :
    (s.sent ++ [b])[j]? = s.txByte j := by
  obtain ⟨-, -, hlen⟩ := h.tx.stream m hm hx
  rw [List.length_append, List.length_singleton] at hj
  by_cases hlast : j = s.sent.length
  · rw [hlast, List.getElem?_concat_length, hlen, hb]
  · rw [List.getElem?_append_left (by omega)]
    exact h.sentBytes m hm hq (by simp [hx]) j (by omega)

/-- The handshake of the last byte keeps the invariant (R151). -/
theorem inv_lastByte {s : State} {m : Mode} (h : s.Inv) (hm : txMode s.seq = some m) (hx : s.txs = .stream) {b : Byte}
    (hb : s.txByte s.txIdx = some b) (hlast : s.txIdx + 1 = s.txLen) :
    State.Inv { s with txs := .wait, sent := s.sent ++ [b] } := by
  obtain ⟨hdc, -, hlen⟩ := h.tx.stream m hm hx
  exact { h with
    tx := {
      outside := fun ho => by simp [hm] at ho
      stream := fun _ _ hs => nomatch hs
      wait := fun k hk _ =>
        ⟨hdc.trans (Option.some.inj (hm.symm.trans hk)), by rw [List.length_append, hlen]; exact hlast⟩ }
    sentBytes := fun _ _ hq _ => sent_handOver h hm hx hb hq }

/-- The handshake of any other byte keeps the invariant (R151). -/
theorem inv_nextByte {s : State} {m : Mode} (h : s.Inv) (hm : txMode s.seq = some m) (hx : s.txs = .stream) {b : Byte}
    (hb : s.txByte s.txIdx = some b) (hmore : s.txIdx + 1 ≠ s.txLen) :
    State.Inv { s with txIdx := s.txIdx + 1, sent := s.sent ++ [b] } := by
  obtain ⟨hdc, hlt, hlen⟩ := h.tx.stream m hm hx
  have hlt' : s.txIdx + 1 < s.txLen := by omega
  exact { h with
    indexFits := hlt'.trans_le (txLen_le s)
    tx := {
      outside := fun ho => by simp [hm, hx] at ho
      stream := fun k hk _ =>
        ⟨hdc.trans (Option.some.inj (hm.symm.trans hk)), hlt', by rw [List.length_append, hlen]; rfl⟩
      wait := fun _ _ hw => by simp [hx] at hw }
    sentBytes := fun _ _ hq _ => sent_handOver h hm hx hb hq }

/-! ### Between two transactions -/

/-- A state between two transactions, from which the sequencer goes on: what the invariant says whatever the state of the
sequencer, no byte handed over, and no error raised. -/
structure Between (s : State) : Prop where
  params : s.par.wf = true
  indexFits : s.txIdx < 2 ^ s.par.txIdxWidth
  paletteSize : s.pal.length = s.par.palEntries
  palette : ∀ w ∈ s.pal, laneWord w
  bufferForm : Memory.wf s.fb = true
  bufferSize : Memory.below s.par.fbBytes s.fb = true
  prescaler : s.pre < s.par.cyclesPerMs
  cursorInTable : s.cursor.toNat ≤ s.par.tableLen
  logForm : ∀ t ∈ s.log, t.wf
  sent : s.sent = []
  err : s.err = .none

/-- Outside the failed states ERR holds no code (R31). -/
theorem err_none {s : State} (h : s.Inv) (hi : s.seq ≠ .initFailed) (hl : s.seq ≠ .rlFailed) : s.err = .none := by
  by_contra he
  exact (h.errFailed.mp he).elim hi hl

/-- The state transmits nothing and is no failed state. -/
def Quiet (q : Seq) : Prop := txMode q = none ∧ q ≠ .initFailed ∧ q ≠ .rlFailed

/-- A quiet state is between two transactions. -/
theorem between_of_quiet {s : State} (h : s.Inv) (hq : Quiet s.seq) : Between s := by
  obtain ⟨hm, hi, hl⟩ := hq
  exact { h with sent := h.tx.outside (.inl hm), err := err_none h hi hl }

theorem quiet_idle : Quiet .idle := by unfold Quiet; decide
theorem quiet_tblDecode : Quiet .tblDecode := by unfold Quiet; decide
theorem quiet_rlTop : Quiet .rlTop := by unfold Quiet; decide
theorem quiet_stopped : Quiet .stopped := by unfold Quiet; decide

/-- The delays are quiet (R210). -/
theorem quiet_of_waiting {q : Seq} (h : q.waiting = true) : Quiet q := by
  cases q <;> simp_all [Seq.waiting, Quiet, txMode]

/-- The latched frame has arguments and ends where CURSOR stands (R27, R133). -/
def FrameLatched (s : State) : Prop := 1 ≤ s.frmLen.toNat ∧ s.frmBase.toNat + s.frmLen.toNat = s.cursor.toNat

/-- A COMMAND transaction has one byte (R10, R152). -/
theorem txLen_command {s : State} (hm : txMode s.seq = some .command) : s.txLen = 1 := by
  unfold State.txLen
  split
  next hq => simp [hq, txMode] at hm
  next hq => simp [hq, txMode] at hm
  next => simp [hm]

/-- The completed transaction has the shape of R152, and the next transition starts between two transactions (R150). -/
theorem between_complete {s : State} {m : Mode} (h : s.Inv) (hm : txMode s.seq = some m) (hx : s.txs = .wait)
    (r : TxResult) : Between (complete r s) := by
  obtain ⟨hdc, hlen⟩ := h.tx.wait m hm hx
  have herr : s.err = .none := err_none h (fun hq => by simp [hq, txMode] at hm) fun hq => by simp [hq, txMode] at hm
  have hentry : Transaction.wf { mode := s.dc, bytes := s.sent, result := r } := by
    rw [hdc]
    cases m with
    | command => exact hlen.trans (txLen_command hm)
    | data => exact (txLen_pos h hm).trans_eq hlen.symm
  exact { h with
    logForm := fun t ht => (List.mem_append.mp ht).elim (h.logForm t) fun ht => by
      rw [List.mem_singleton.mp ht]; exact hentry
    sent := rfl
    err := herr }

/-- The invariant of a state between two transactions, by its sequencer state. -/
theorem inv_of_between {s : State} (h : Between s) (hx : txMode s.seq = none ∨ s.txs = .setup)
    (hi : s.seq ≠ .initFailed) (hl : s.seq ≠ .rlFailed) (hc : s.seq = .stopped → s.cancelReq = true)
    (hf : s.seq = .tblOpcTx ∨ s.seq = .tblArgTx → FrameLatched s) : s.Inv :=
  { h with
    frame := hf
    tx := txInv_of_sent_nil h.sent hx
    sentBytes := sentInv_of_sent_nil h.sent
    errFailed := by simp [h.err, hi, hl]
    loopErr := fun hq => absurd hq hl
    stoppedCancelled := hc }

/-- Entering a transmitting state (R24); the frame is latched where its transaction is a table command's. -/
theorem inv_goTx_frame {s : State} {q : Seq} (h : Between s) (hq : txMode q ≠ none)
    (hf : q = .tblOpcTx ∨ q = .tblArgTx → FrameLatched s) : (goTx q s).Inv :=
  inv_of_between { h with indexFits := Nat.two_pow_pos _ } (.inr rfl) (by rintro rfl; exact hq rfl)
    (by rintro rfl; exact hq rfl) (by rintro rfl; exact absurd rfl hq) hf

/-- Entering the transmitting state of a fixed command or the framebuffer reader (R24). -/
theorem inv_goTx {s : State} {q : Seq} (h : Between s) (hq : txMode q ≠ none ∧ q ≠ .tblOpcTx ∧ q ≠ .tblArgTx) :
    (goTx q s).Inv :=
  inv_goTx_frame h hq.1 fun hf => absurd hf (not_or_intro hq.2.1 hq.2.2)

/-- Entering a quiet state (R9); S_STOPPED on cancellation only (R200). -/
theorem inv_goTo {s : State} {q : Seq} (h : Between s) (hq : Quiet q) (hc : q = .stopped → s.cancelReq = true) :
    (goTo q s).Inv := by
  obtain ⟨hm, hi, hl⟩ := hq
  exact inv_of_between { h with } (.inl hm) hi hl hc (by rintro (rfl | rfl) <;> simp [txMode] at hm)

/-- Going on to the next decode step (R164, R166). -/
theorem inv_goTo_tblDecode {s : State} (h : Between s) : (goTo .tblDecode s).Inv := inv_goTo h quiet_tblDecode nofun

/-- Going on to the top of the loop (R170, R204). -/
theorem inv_goTo_rlTop {s : State} (h : Between s) : (goTo .rlTop s).Inv := inv_goTo h quiet_rlTop nofun

/-- Entering a delay (R210). -/
theorem inv_goWait {s : State} {q : Seq} (h : Between s) (hq : q.waiting = true) (n : BitVec 16) :
    (goWait q n s).Inv := by
  have hb : Between { s with msLeft := n, pre := 0 } := { h with prescaler := Nat.zero_lt_of_lt h.prescaler }
  exact inv_goTo hb (quiet_of_waiting hq) (by rintro rfl; cases hq)

/-- A failed state has a code, and the loop's is a TransportError (R290, R292). -/
theorem inv_failed {s : State} {e : Err} {q : Seq} (h : Between s) (he : e ≠ .none)
    (hq : q = .initFailed ∨ q = .rlFailed ∧ e = .transport) : State.Inv { s with err := e, seq := q } := by
  have hm : txMode q = none := by rcases hq with rfl | ⟨rfl, -⟩ <;> rfl
  exact { h with
    frame := by rintro (rfl | rfl) <;> simp [txMode] at hm
    tx := txInv_of_sent_nil h.sent (.inl hm)
    sentBytes := sentInv_of_sent_nil h.sent
    errFailed := iff_of_true he (hq.imp id And.left)
    loopErr := by rintro rfl; simpa using hq
    stoppedCancelled := by rintro rfl; simp at hq }

/-- Raising an error (R292). -/
theorem inv_raise {s : State} {e : Err} (h : Between s) (he : e ≠ .none)
    (hl : s.seq.bringUp = false → e = .transport) : (raise e s).Inv := by
  cases hb : s.seq.bringUp with
  | true => rw [raise_bringUp hb]; exact inv_failed h he (.inl rfl)
  | false => rw [raise_loop hb]; exact inv_failed h he (.inr ⟨rfl, hl hb⟩)

theorem inv_raise_transport {s : State} (h : Between s) : (raise .transport s).Inv :=
  inv_raise h (by decide) fun _ => rfl

/-! ### The block's move -/

/-- The delay after SWRESET, its failure noted (R161). -/
theorem inv_afterSwreset {s : State} (h : Between s) (failed : Bool) : (afterSwreset failed s).Inv :=
  inv_goWait (s := { s with pendErr := failed }) (q := .rstWait) { h with } rfl _

/-- The state after a transaction that was answered ok (R161 to R169, R203, R204). -/
theorem inv_afterOk {s : State} {m : Mode} (hm : txMode s.seq = some m) (hb : Between s)
    (hf : s.seq = .tblOpcTx → FrameLatched s) :
    (afterOk s.seq s).Inv := by
  cases hs : s.seq <;> rw [hs] at hm hf <;> try (cases hm; done)
  case rstTx => exact inv_afterSwreset hb false
  case tblOpcTx =>
    simp only [afterOk, afterOpcode]
    rw [if_pos (hf rfl).1]
    exact inv_goTx_frame hb (by decide) fun _ => hf rfl
  case tblArgTx => exact inv_goTo_tblDecode hb
  case slpTx => exact inv_goWait hb rfl _
  case donTx => exact inv_goWait hb rfl _
  case rlCmdTx => exact inv_goTx hb (by decide)
  case rlPixTx => exact inv_goTo_rlTop hb

/-- The state after a transaction that was answered err (R161, R292). -/
theorem inv_afterErr {s : State} (hb : Between s) (q : Seq) : (afterErr q s).Inv := by
  cases q
  case rstTx => exact inv_afterSwreset hb true
  all_goals exact inv_raise_transport hb

/-- One cycle of a transaction keeps the invariant. -/
theorem inv_transmit {s t : State} {m : Mode} (h : s.Inv) (hm : txMode s.seq = some m)
    (ht : sendCycle m s.txLen s.txByte (afterOk s.seq) (afterErr s.seq) s = .next t) : t.Inv := by
  rcases sendCycle_cases ht with ⟨-, rfl⟩ | ⟨-, -, rfl⟩ | ⟨b, hx, hb, hlast, rfl⟩ | ⟨b, hx, hb, hmore, rfl⟩ |
    ⟨-, -, rfl⟩ | ⟨hx, -, -, rfl⟩ | ⟨hx, -, -, rfl⟩
  · exact inv_setup h hm
  · exact h
  · exact inv_lastByte h hm hx hb hlast
  · exact inv_nextByte h hm hx hb hmore
  · exact h
  · exact inv_afterOk (s := complete .ok s) hm (between_complete h hm hx .ok) fun hq => h.frame (.inl hq)
  · exact inv_afterErr (between_complete h hm hx .err) s.seq

/-- The successors of the four delays (R162, R168, R170, R201). -/
def DelayEnd (f : State → State) : Prop :=
  f = afterResetDelay ∨ f = goTx .donTx ∨ f = goTo .rlTop ∨ f = goTx .rlCmdTx

/-- The end of any delay keeps the invariant. -/
theorem inv_delayEnd {s : State} (h : Between s) {f : State → State} (hf : DelayEnd f) : (f s).Inv := by
  rcases hf with rfl | rfl | rfl | rfl
  · unfold afterResetDelay
    split_ifs
    · exact inv_raise_transport h
    · exact inv_goTo_tblDecode { h with cursorInTable := Nat.zero_le _ }
  · exact inv_goTx h (by decide)
  · exact inv_goTo_rlTop h
  · exact inv_goTx h (by decide)

/-- One cycle of a delay keeps the invariant: PRE stays below CYCLES_PER_MS (R29, R211). -/
theorem inv_waitCycle {s : State} (h : s.Inv) (hq : s.seq.waiting = true) {f : State → State} (hf : DelayEnd f) :
    (waitCycle f s).Inv := by
  rcases waitCycle_cases f s with ⟨-, hw⟩ | ⟨-, -, hw⟩ | ⟨-, hmore, hw⟩ <;> rw [hw]
  · exact inv_delayEnd (between_of_quiet h (quiet_of_waiting hq)) hf
  · exact { h with prescaler := Nat.zero_lt_of_lt h.prescaler, tx := { h.tx with } }
  · have hpre : s.pre + 1 < s.par.cyclesPerMs := by have := h.prescaler; omega
    exact { h with prescaler := hpre, tx := { h.tx with } }

/-- A group that the decoder answers ends inside the bytes it was read from (R130). -/
theorem group_fits {bytes args : List Byte} {opc : Byte} (h : decodeGroup bytes = .tblGroup opc args) :
    1 ≤ args.length ∧ args.length ≤ 255 ∧ args.length + 2 ≤ bytes.length := by
  rcases decodeGroup_cases bytes with hd | ⟨_, hd⟩ | ⟨n, opc', rest, rfl, hn, hle, hd⟩ <;> rw [h] at hd <;> cases hd
  have hpos : n.toNat ≠ 0 := fun h0 => hn (BitVec.eq_of_toNat_eq h0)
  have hlt := n.isLt
  simp only [List.length_take, List.length_cons]
  omega

/-- Latching a group keeps the invariant: CURSOR stands at its end, inside the table (R133, R136). -/
theorem inv_group {s : State} (h : s.Inv) (hq : s.seq = .tblDecode) {opc : Byte} {args : List Byte}
    (hpos : 1 ≤ args.length) (hbyte : args.length ≤ 255)
    (hfit : s.cursor.toNat + args.length + 2 ≤ s.par.tableLen) {t : State} (ht : exec (.tblGroup opc args) s = .next t) :
    t.Inv := by
  cases ht
  have hb : Between s := between_of_quiet h (hq ▸ quiet_tblDecode)
  obtain ⟨htab, -, -⟩ := params_ranges h.params
  have hlen : (BitVec.ofNat 8 args.length).toNat = args.length := by simp; omega
  have hbase : (s.cursor + 2).toNat = s.cursor.toNat + 2 := by simp; omega
  have hnext : (s.cursor + BitVec.ofNat 16 (args.length + 2)).toNat = s.cursor.toNat + args.length + 2 := by simp; omega
  refine inv_goTx_frame { hb with cursorInTable := hnext.trans_le hfit } (by decide) fun _ => ?_
  change 1 ≤ (BitVec.ofNat 8 args.length).toNat ∧
    (s.cursor + 2).toNat + (BitVec.ofNat 8 args.length).toNat = (s.cursor + BitVec.ofNat 16 (args.length + 2)).toNat
  omega

/-- One decode step keeps the invariant (R130). -/
theorem inv_decode {s t : State} (h : s.Inv) (hq : s.seq = .tblDecode)
    (ht : exec (decodeGroup (s.par.initTable.drop s.cursor.toNat)) s = .next t) : t.Inv := by
  have hb : Between s := between_of_quiet h (hq ▸ quiet_tblDecode)
  rcases decodeGroup_cases (s.par.initTable.drop s.cursor.toNat) with hd | ⟨n, hd⟩ | ⟨_, opc, _, _, _, _, hd⟩ <;>
    rw [hd] at ht
  · cases ht
    exact inv_goTx hb (by decide)
  · cases ht
    exact inv_raise hb (by decide) (by simp [hq, Seq.bringUp, Seq.code])
  · obtain ⟨hpos, hbyte, hfit⟩ := group_fits hd
    refine inv_group h hq hpos hbyte ?_ ht
    rw [List.length_drop] at hfit
    simp only [Params.tableLen]
    omega

/-- The top of an iteration keeps the invariant: S_STOPPED is entered on cancellation alone (R200). -/
theorem inv_loopTop {s : State} (h : s.Inv) (hq : s.seq = .rlTop) : (loopTop s).Inv := by
  have hb : Between s := between_of_quiet h (hq ▸ quiet_rlTop)
  unfold loopTop
  split_ifs with hc
  · exact inv_goTo hb quiet_stopped fun _ => hc
  · exact inv_goWait hb rfl _

/-- The block's move keeps the invariant. -/
theorem inv_blockMove {s t : State} (h : s.Inv) (ht : blockMove exec s = .next t) : t.Inv := by
  rcases blockMove_cases ht with ⟨m, hm, hsend⟩ | ⟨hq, f, rfl, hf⟩ | ⟨hq, -⟩ | ⟨hq, rfl⟩ | ⟨-, rfl⟩
  · exact inv_transmit h hm hsend
  · exact inv_waitCycle h hq hf
  · exact inv_decode h hq (by simpa [blockMove, fetch, hq] using ht)
  · exact inv_loopTop h hq
  · exact h

/-! ### The host's write -/

/-- START's own effect keeps the invariant (R261). -/
theorem inv_startBringUp {s : State} (h : s.Inv) (hq : s.seq = .idle) : (startBringUp s).Inv := by
  have hb : Between s := between_of_quiet h (hq ▸ quiet_idle)
  cases hr : s.pins.resOk with
  | true => rw [startBringUp_ok hq hr]; exact inv_goTx { hb with } (by decide)
  | false => rw [startBringUp_err hq hr]; exact inv_failed hb (by decide) (.inl rfl)

/-- What a host write can do keeps the invariant: CANCEL_REQ is never cleared, and a palette entry it writes is a convert
result (R241, R262). -/
theorem inv_writeEffect {s u : State} {stop : Bool} (h : s.Inv) (hw : WriteEffect s u stop) : u.Inv := by
  obtain ⟨⟨v, hv, hu⟩, hcancel, hlen, hpal⟩ := hw
  have hvi : v.Inv := by
    rcases hv with rfl | ⟨hq, rfl⟩
    · exact h
    · exact inv_startBringUp h hq
  have hside : v.cancelReq = s.cancelReq ∧ v.pal = s.pal := by
    rcases hv with rfl | ⟨-, rfl⟩
    · exact ⟨rfl, rfl⟩
    · exact ⟨startBringUp_cancel s, startBringUp_pal s⟩
  have he : v.EngineSame u := by rw [hu]; constructor <;> rfl
  refine inv_of_engineSame hvi he (hlen.trans (congrArg List.length hside.2).symm) (fun w hmem => ?_) fun hc => ?_
  · rcases hpal w hmem with hold | ⟨c, rfl⟩
    · exact h.palette w hold
    · exact laneWord_convert _ _ _
  · rw [hcancel, ← hside.1, hc, Bool.true_or]

/-! ### The step -/

/-- Settles O47, by the moves of a cycle: the writer's stores, the host's read, then block reset, or the block's move and
the host's write; then the clock. -/
theorem everyStepKeepsInvariant : Obligations.EveryStepKeepsInvariant := by
  intro s t h ht
  obtain ⟨hst, hbus, v, hrest⟩ := step_cases ht
  have hopen : (respond v s.stored).Inv := inv_respond (inv_stored h hst) v
  rcases hrest with ⟨-, rfl⟩ | ⟨-, b, u, hblock, hwrite, rfl⟩
  · exact inv_clockTick (inv_blockReset hopen)
  · have hpins : b.pins = s.pins := (blockMove_pins hblock).trans rfl
    obtain ⟨u', hu', heff⟩ := hostWriteMove_effect (s := b) (by rw [hpins]; exact hbus)
    cases hu'.symm.trans hwrite
    exact inv_clockTick (inv_writeEffect (inv_blockMove hopen hblock) heff)

end Sys2Proof.Proofs

/-! The registers of 10_state.md, read by the invariant: what the latched frame, STATUS and the outputs hold; and which cycles change CANCEL_REQ, DC and ERR. -/

namespace Sys2Proof.Proofs

open Sys2Proof.Machine Sys2Proof.Laws

/-! ### The latched frame -/

/-- A frame of 1 to 255 arguments is a well-formed command: TBL_CMD is the name only where no named form has the
opcode and the number of arguments (R188). -/
theorem decodeFrame_wellFormed (opc : Byte) {args : List Byte} (h : frameLength args.length = true) :
    (decodeFrame opc args).wellFormed = true := by
  match args, h with
  | [_], _ | [_, _], _ | [_, _, _], _ =>
    simp only [decodeFrame]
    split_ifs <;> simp_all [Instr.wellFormed, frameLength, namedForms]
  | _ :: _ :: _ :: _ :: rest, h => simpa [decodeFrame, Instr.wellFormed, namedForms] using h

/-- The bytes of a slice that the table has are the table's bytes from its offset on (R62). -/
theorem tableSlice_some {s : State} {c n : Nat} (h : c + n ≤ s.par.tableLen) :
    ∃ bytes, s.tableSlice c n = some bytes ∧ bytes.length = n ∧
      ∀ j, j < bytes.length → bytes[j]? = s.tableRead (c + j) := by
  simp only [Params.tableLen] at h
  refine ⟨_, if_pos h, by simp; omega, fun j hj => ?_⟩
  rw [List.getElem?_take_of_lt (by simp at hj; omega), List.getElem?_drop, State.tableRead]

/-- In both states of a table command the fetch takes the latched frame (R22, R27). -/
theorem fetch_frame {s : State} (h : s.seq = .tblOpcTx ∨ s.seq = .tblArgTx) : fetch s = fetchFrame s := by
  rcases h with h | h <;> simp [fetch, h]

/-- Settles O21: the invariant puts the frame inside the table, where CURSOR stands. -/
theorem latchedFrameIsFetched : Obligations.LatchedFrameIsFetched := by
  intro s h hq
  obtain ⟨hpos, hend⟩ := h.frame hq
  obtain ⟨args, hargs, hlen, hbytes⟩ := tableSlice_some (hend ▸ h.cursorInTable)
  have hwf : frameLength args.length = true := by
    have := s.frmLen.isLt
    simp [frameLength]; omega
  exact ⟨_, args, by rw [fetch_frame hq, fetchFrame, hargs], decodeFrame_wellFormed _ hwf, decodeFrame_frameOf _ _,
    hlen, hbytes⟩

/-! ### STATUS -/

theorem phase_eq_five {q : Seq} : q.phase = 5 ↔ q = .stopped := by cases q <;> decide
theorem phase_eq_six {q : Seq} : q.phase = 6 ↔ q = .initFailed := by cases q <;> decide
theorem phase_eq_seven {q : Seq} : q.phase = 7 ↔ q = .rlFailed := by cases q <;> decide
theorem phase_le (q : Seq) : q.phase.toNat ≤ 7 := by cases q <;> decide
theorem seqCode_le (q : Seq) : q.code.toNat ≤ 16 := by cases q <;> decide
theorem errCode_ne_zero {e : Err} : e.code ≠ 0 ↔ e ≠ .none := by cases e <;> decide

/-- Settles O59: PHASE names the terminal state, and the invariant says what CANCEL_REQ and ERR hold there. -/
theorem statusValuesThatOccur : Obligations.StatusValuesThatOccur := by
  intro s h
  refine ⟨fun hp => ?_, ?_, fun hp => ?_, phase_le _, seqCode_le _⟩
  · have hq := phase_eq_five.mp hp
    rw [State.statusWord, h.stoppedCancelled hq, err_none h (by simp [hq]) (by simp [hq]), hq]
    decide
  · rw [errCode_ne_zero, h.errFailed, phase_eq_six, phase_eq_seven]
  · rw [h.loopErr (phase_eq_seven.mp hp)]; rfl

/-! ### The outputs -/

/-- A state that transmits nothing has no byte to offer (R152). -/
theorem txByte_none {s : State} (h : txMode s.seq = none) (i : Nat) : s.txByte i = none := by
  have hlen : s.txLen = 0 := by
    unfold State.txLen
    split <;> simp_all [txMode]
  simp [State.txByte, hlen]

/-- Settles O60: outside the stream there is no byte to offer, and inside the reader's stream TX_IDX is below FB_BYTES. -/
theorem outputsIdleOutsideTheStream : Obligations.OutputsIdleOutsideTheStream := by
  intro s
  refine ⟨?_, fun h => ?_, fun h hx hq => ?_⟩
  · rintro (hx | hm)
    · rw [State.txPort, if_neg hx]
    · simp [State.txPort, txByte_none hm]
  · rw [State.fbAddr, if_neg (by rintro ⟨hq, hx⟩; simp [hq, hx] at h)]
  · obtain ⟨-, hi, -⟩ := h.tx.stream .data (by rw [hq]; rfl) hx
    exact fbAddr_toNat hq hx (by simpa [State.txLen, hq] using hi)

/-! ### The registers that a cycle can change -/

/-- Settles O51: the host's write is the one move that reaches CANCEL_REQ. -/
theorem cancellationIsSticky : Obligations.CancellationIsSticky := by
  intro s t hr h
  obtain ⟨_, _, u, _, _, _, _, _, hcancel, _, _, rfl⟩ := step_work h hr
  exact hcancel

theorem startBringUp_dc (s : State) : (startBringUp s).dc = s.dc := by
  unfold startBringUp; split_ifs <;> rfl

theorem afterOk_dc (q : Seq) (s : State) : (afterOk q s).dc = s.dc := by
  cases q
  case tblOpcTx => simp only [afterOk, afterOpcode]; split_ifs <;> rfl
  all_goals rfl

theorem afterErr_dc (q : Seq) (s : State) : (afterErr q s).dc = s.dc := by cases q <;> rfl

theorem delayEnd_dc {f : State → State} (hf : DelayEnd f) (s : State) : (f s).dc = s.dc := by
  rcases hf with rfl | rfl | rfl | rfl
  · unfold afterResetDelay; split_ifs <;> rfl
  all_goals rfl

/-- A cycle of a transaction drives the mode in TX_SETUP and keeps it afterwards (R151, R153). -/
theorem sendCycle_dc {m : Mode} {len : Nat} {byteAt : Nat → Option Byte} {onOk onErr : State → State} {s t : State}
    (hOk : ∀ x : State, (onOk x).dc = x.dc) (hErr : ∀ x : State, (onErr x).dc = x.dc)
    (h : sendCycle m len byteAt onOk onErr s = .next t) : t.dc = s.dc ∨ s.txs = .setup ∧ t.dc = m := by
  rcases sendCycle_cases h with ⟨hx, rfl⟩ | ⟨-, -, rfl⟩ | ⟨_, -, -, -, rfl⟩ | ⟨_, -, -, -, rfl⟩ | ⟨-, -, rfl⟩ |
    ⟨-, -, -, rfl⟩ | ⟨-, -, -, rfl⟩
  · exact .inr ⟨hx, rfl⟩
  · exact .inl rfl
  · exact .inl rfl
  · exact .inl rfl
  · exact .inl rfl
  · exact .inl (hOk _)
  · exact .inl (hErr _)

/-- The block's move keeps `dc` but in TX_SETUP, which drives the state's mode (R30, R153). -/
theorem blockMove_dc {s t : State} (h : blockMove exec s = .next t) :
    t.dc = s.dc ∨ s.txs = .setup ∧ txMode s.seq = some t.dc := by
  rcases blockMove_cases h with ⟨m, hm, hsend⟩ | ⟨-, f, rfl, hf⟩ | ⟨-, i, hi, hform⟩ | ⟨-, rfl⟩ | ⟨-, rfl⟩
  · exact (sendCycle_dc (afterOk_dc _) (afterErr_dc _) hsend).imp id fun ⟨hx, hd⟩ => ⟨hx, hd ▸ hm⟩
  · left
    rcases waitCycle_cases f s with ⟨-, hw⟩ | ⟨-, -, hw⟩ | ⟨-, -, hw⟩ <;> rw [hw]
    exact delayEnd_dc hf s
  · rcases hform with rfl | ⟨_, rfl⟩ | ⟨_, _, rfl⟩ <;> cases hi <;> exact .inl rfl
  · left; unfold loopTop; split_ifs <;> rfl
  · exact .inl rfl

/-- Settles O52: the host's write keeps `dc`, so a change is the block's move's. -/
theorem modeSelectChangesOnlyInSetup : Obligations.ModeSelectChangesOnlyInSetup := by
  intro s t hr h hne
  obtain ⟨v, b, u, w, hblock, -, hw, hu, -, -, -, rfl⟩ := step_work h hr
  have hdc : (clockTick u).dc = b.dc := by
    have huw : u.dc = w.dc := by rw [hu]
    rcases hw with rfl | ⟨-, rfl⟩
    · exact huw
    · exact huw.trans (startBringUp_dc b)
  rw [hdc] at hne ⊢
  exact (blockMove_dc hblock).resolve_left hne

/-! ### ERR -/

/-- The block makes no move in a terminal state (R293). -/
theorem blockMove_terminal {s t : State} (hq : s.seq.terminal = true) (h : blockMove exec s = .next t) : t = s := by
  have hfetch : fetch s = .unit ∧ unitMove s = .next s := by
    cases hs : s.seq <;> simp_all [Seq.terminal, fetch, unitMove]
  simp only [blockMove, hfetch.1, hfetch.2] at h
  cases h; rfl

/-- Without block reset ERR stays in a terminal state: START is ignored there (R261, R297). -/
theorem step_terminal_err {s t : State} (hq : s.seq.terminal = true) (hr : s.pins.rst = false)
    (h : step s = .next t) : t.err = s.err := by
  obtain ⟨v, b, u, w, hblock, -, hw, hu, -, -, -, rfl⟩ := step_work h hr
  obtain rfl := blockMove_terminal (s := respond v s.stored) hq hblock
  have huw : u.err = w.err := by rw [hu]
  rcases hw with rfl | ⟨hidle, -⟩
  · exact huw
  · rw [show s.seq = .idle from hidle] at hq
    cases hq

/-- Settles O50: a state with a code is terminal and keeps it, and the invariant after the step says that a state that
has gained a code is a failed one. -/
theorem errorCodeIsSetOnce : Obligations.ErrorCodeIsSetOnce := by
  intro s t hs hr h
  have hkeep : s.seq.terminal = true → t.err = s.err := fun hq => step_terminal_err hq hr h
  have hset : s.err ≠ .none → t.err = s.err := fun he => by
    rcases hs.errFailed.mp he with hq | hq <;> exact hkeep (by rw [hq]; rfl)
  refine ⟨hset, fun hne => ⟨Bool.eq_false_iff.mpr fun hq => hne (hkeep hq), ?_⟩⟩
  have hnone : s.err = .none := by
    by_contra he
    exact hne (hset he)
  exact (everyStepKeepsInvariant s t hs h).errFailed.mp (hnone ▸ hne)

end Sys2Proof.Proofs

/-! The Pixel Buffer and the init table (20_memory.md): what a read answers after a list of stores, the canonical form, which accesses the interface refuses, what reaches the two memories in a cycle, and that a dutiful environment never stops the machine. -/

namespace Sys2Proof.Proofs

open Sys2Proof.Machine Sys2Proof.Laws

/-! ### The Pixel Buffer's bytes -/

/-- Settles O57, by induction on the stores, oldest first: a later store to the offset hides the first one. -/
theorem bufferReadsTheLastStore : Obligations.BufferReadsTheLastStore := by
  intro m stores y
  induction stores generalizing m with
  | nil => rfl
  | cons c rest ih =>
    have hstep : Memory.writeAll m (c :: rest) = Memory.writeAll (Memory.write m c.1 c.2) rest := rfl
    rw [hstep, ih, List.reverse_cons, List.find?_append]
    cases rest.reverse.find? (fun c => c.1 == y) with
    | some last => rfl
    | none =>
      rw [read_write]
      by_cases hy : c.1 = y
      · simp [hy]
      · simp [hy, Ne.symm hy]

theorem read_cons_same (x : Nat) (b : Byte) (m : Memory) : Memory.read? ((x, b) :: m) x = some b := if_pos rfl

theorem read_cons_other {x y : Nat} (h : x ≠ y) (b : Byte) (m : Memory) :
    Memory.read? ((x, b) :: m) y = Memory.read? m y := if_neg h

/-- The canonical form, read at its head. -/
theorem wf_cons {c : Host.Cell} {m : Memory} :
    Memory.wf (c :: m) = true ↔ Memory.above c.1 m = true ∧ Memory.wf m = true := by
  simp [Memory.wf]

/-- In canonical form no byte is stored at or below an offset that the first listed one is above. -/
theorem read_of_above {m : Memory} {x y : Nat} (hm : Memory.wf m = true) (ha : Memory.above x m = true) (hy : y ≤ x) :
    Memory.read? m y = none := by
  induction m generalizing x with
  | nil => rfl
  | cons c rest ih =>
    obtain ⟨hrest, hwf⟩ := wf_cons.mp hm
    have hx : x < c.1 := by simpa [Memory.above] using ha
    rw [read_cons_other (by omega)]
    exact ih hwf hrest (by omega)

/-- In canonical form the first listed offset is the least that holds a stored byte. -/
theorem head_le_of_read {c : Host.Cell} {m : Memory} {x : Nat} (hm : Memory.wf (c :: m) = true)
    (hx : Memory.read? (c :: m) x ≠ none) : c.1 ≤ x := by
  obtain ⟨hrest, hwf⟩ := wf_cons.mp hm
  by_contra hlt
  exact hx ((read_cons_other (by omega) _ _).trans (read_of_above hwf hrest (by omega)))

/-- Settles O58, by induction on the buffers: their heads are each the least stored offset, and past the head the rests
hold the same bytes. The canonical form is the model's (log 6). -/
theorem equalBuffersAreEqualData : Obligations.EqualBuffersAreEqualData := by
  intro m n hm hn h
  induction m generalizing n with
  | nil =>
    cases n with
    | nil => rfl
    | cons d n => exact nomatch (h d.1).trans (read_cons_same d.1 d.2 n)
  | cons c m ih =>
    cases n with
    | nil => exact nomatch (h c.1).symm.trans (read_cons_same c.1 c.2 m)
    | cons d n =>
      obtain ⟨a, b⟩ := c
      obtain ⟨a', b'⟩ := d
      have hle : a' ≤ a := head_le_of_read hn (by rw [← h, read_cons_same]; simp)
      have hge : a ≤ a' := head_le_of_read hm (by rw [h, read_cons_same]; simp)
      obtain rfl : a = a' := Nat.le_antisymm hge hle
      have hb : some b = some b' := (read_cons_same a b m).symm.trans ((h a).trans (read_cons_same a b' n))
      obtain ⟨hma, hmw⟩ := wf_cons.mp hm
      obtain ⟨hna, hnw⟩ := wf_cons.mp hn
      have hrest : ∀ x, Memory.read? m x = Memory.read? n x := fun x => by
        by_cases hx : a = x
        · subst hx
          rw [read_of_above hmw hma le_rfl, read_of_above hnw hna le_rfl]
        · rw [← read_cons_other hx b m, h, read_cons_other hx]
      rw [Option.some.inj hb, ih n hmw hnw hrest]

/-! ### Refused accesses -/

/-- An access that the interface does not admit reads and writes at once, is narrower than a word, or is misaligned. -/
theorem present_not_admitted_iff (a : BusAccess) :
    a.present = true ∧ a.admitted = false ↔
      ((a.wr = true ∧ a.rd = true) ∨
        ((a.wr = true ∨ a.rd = true) ∧ (a.narrow = true ∨ a.addr.toNat % 4 ≠ 0))) := by
  by_cases hboth : a.wr = true ∧ a.rd = true
  · exact iff_of_true (by simp [BusAccess.present, BusAccess.admitted, hboth]) (.inl hboth)
  · rw [or_iff_right hboth, BusAccess.present, Bool.or_eq_true]
    refine and_congr_right fun hdriven => ?_
    have hone : (a.wr != a.rd) = true := by
      rcases hdriven with h | h <;> simp_all
    rw [BusAccess.admitted, hone, Bool.true_and, Bool.and_eq_false_iff, Bool.not_eq_false', aligned, beq_eq_false_iff_ne]

/-- No admitted access is decoded to REFUSED_ACCESS (R99). -/
theorem decodeAccess_ne_refusedAccess (dir : Dir) (off : BitVec 8) (w : Word) (a : BusAccess) :
    decodeAccess dir off w ≠ .refusedAccess a := by
  unfold decodeAccess decodeCtrl
  cases dir <;> split_ifs <;> simp

/-- The decoder refuses what is on the bus and is not admitted (R67). -/
theorem decode_bus_refused_iff (a : BusAccess) :
    decode (.bus a) = .ok (.refusedAccess a) ↔ a.present = true ∧ a.admitted = false := by
  simp only [decode, decodeBus]
  split_ifs with hp ha
  · simp [ha, decodeAccess_ne_refusedAccess]
  · simp [hp, ha]
  · simp [hp]

/-- Settles O5: the decoder refuses what is present and not admitted. -/
theorem refusedExactlyWhenNotAdmitted : Obligations.RefusedExactlyWhenNotAdmitted := fun a =>
  (decode_bus_refused_iff a).trans (present_not_admitted_iff a)

/-- The host's move at the start of a cycle refuses what is not admitted (R260). -/
theorem hostReadMove_refused {s : State} (h : s.pins.bus.present = true ∧ s.pins.bus.admitted = false) :
    hostReadMove exec s = .refused .accessNotAdmitted := by
  have hi : hostInstr s = some (.refusedAccess s.pins.bus) := by
    simp [hostInstr, (decode_bus_refused_iff _).mpr h]
  rw [hostReadMove_of_read hi (by simp [busWrite, h.2])]
  rfl

/-- Settles O43: the refusal is the host's first move, which comes before block reset (log 13). -/
theorem refusedAccessStopsTheRun : Obligations.RefusedAccessStopsTheRun := by
  refine ⟨fun _ _ => rfl, fun s hst hbus => ?_⟩
  have href : hostReadMove exec s.stored = .refused .accessNotAdmitted :=
    hostReadMove_refused ((present_not_admitted_iff _).mpr hbus)
  rw [step, cycle, writerMove_next hst, andThen_next, href, andThen_refused]

/-! ### What the sequencer's instructions leave to the host -/

/-- A table command, named or not, runs the two transactions of its frame (R188). -/
theorem exec_of_frameOf {i : Instr} {f : Byte × List Byte} (h : i.frameOf = some f) (s : State) :
    exec i s = frameCycle f.1 f.2 s := by
  cases i <;> cases h <;> rfl

theorem sendCommand_hostSide {b : Byte} {onOk onErr : State → State} {s t : State}
    (hOk : ∀ x : State, x.HostSideSame (onOk x)) (hErr : ∀ x : State, x.HostSideSame (onErr x))
    (h : sendCommand b onOk onErr s = .next t) : s.HostSideSame t :=
  sendCycle_hostSide hOk hErr h

theorem frameCycle_hostSide {opc : Byte} {args : List Byte} {s t : State} (h : frameCycle opc args s = .next t) :
    s.HostSideSame t := by
  unfold frameCycle at h
  split_ifs at h
  · exact sendCycle_hostSide (goTo_hostSide _) (raise_hostSide _) h
  · exact sendCommand_hostSide (afterOk_hostSide .tblOpcTx) (raise_hostSide _) h

/-- A sequencer's instruction leaves the host's side as it is (R72, R77, R243). -/
theorem exec_sequencer_hostSide {i : Instr} {s t : State} (hi : i.ofSequencer = true) (h : exec i s = .next t) :
    s.HostSideSame t := by
  cases hf : i.frameOf with
  | some f => exact frameCycle_hostSide ((exec_of_frameOf hf s).symm.trans h)
  | none =>
    cases i <;> try (cases hi; done)
    case tblSentinel => cases h; exact goTx_hostSide _ _
    case tblGroup => cases h; constructor <;> rfl
    case malformed => cases h; exact raise_hostSide _ _
    case swreset => exact sendCommand_hostSide (afterOk_hostSide .rstTx) (afterErr_hostSide .rstTx) h
    case slpout => exact sendCommand_hostSide (goWait_hostSide _ _) (raise_hostSide _) h
    case dispon => exact sendCommand_hostSide (goWait_hostSide _ _) (raise_hostSide _) h
    case ramwr => exact sendCommand_hostSide (goTx_hostSide _) (raise_hostSide _) h
    all_goals cases hf

/-- Settles O44: with the host's side the buffer and the parameters stay. -/
theorem sequencerLeavesHostSide : Obligations.SequencerLeavesHostSide := by
  intro i s t hi h
  have hsame := exec_sequencer_hostSide hi h
  exact ⟨hsame, fun a => by rw [State.fbRead, State.fbRead, hsame.fb], by rw [hsame.par]⟩

/-! ### What a cycle does to the two memories -/

theorem startBringUp_par (s : State) : (startBringUp s).par = s.par := by
  obtain ⟨_, _, _, _, _, h⟩ := startBringUp_fields s
  rw [h]

theorem startBringUp_fb (s : State) : (startBringUp s).fb = s.fb := by
  obtain ⟨_, _, _, _, _, h⟩ := startBringUp_fields s
  rw [h]

/-- No move of a cycle but the writer's changes the Pixel Buffer, and none the parameters (R72, R77). -/
theorem step_par_and_fb {s t : State} (h : step s = .next t) :
    t.par = s.par ∧ t.fb = Memory.writeAll s.fb s.pins.stores := by
  cases hr : s.pins.rst with
  | true =>
    obtain ⟨-, -, v, ⟨-, rfl⟩ | ⟨hr', -⟩⟩ := step_cases h
    · exact ⟨rfl, rfl⟩
    · rw [hr] at hr'; cases hr'
  | false =>
    obtain ⟨v, b, u, w, -, hside, hw, hu, -, -, -, rfl⟩ := step_work h hr
    have hkeep : w.par = b.par ∧ w.fb = b.fb := by
      rcases hw with rfl | ⟨-, rfl⟩
      · exact ⟨rfl, rfl⟩
      · exact ⟨startBringUp_par b, startBringUp_fb b⟩
    have hwrite : u.par = w.par ∧ u.fb = w.fb := by rw [hu]; exact ⟨rfl, rfl⟩
    exact ⟨(hwrite.1.trans hkeep.1).trans hside.par, (hwrite.2.trans hkeep.2).trans hside.fb⟩

/-- Settles O56: the buffer's half of `step_par_and_fb`. -/
theorem onlyTheWriterChangesTheBuffer : Obligations.OnlyTheWriterChangesTheBuffer := fun _ _ h =>
  (step_par_and_fb h).2

/-- A run of one step more is a step and the run of the rest. -/
theorem run_succ_eq_next {M : Host.Core} {k : Nat} {s t : M.State} (h : M.run (k + 1) s = .next t) :
    ∃ u, M.step s = .next u ∧ M.run k u = .next t := by
  rw [Host.Core.run] at h
  split at h
  next u hstep => exact ⟨u, hstep, h⟩
  next => cases h
  next => cases h

/-- Settles O55, by induction on the number of steps. -/
theorem initTableNeverChanges : Obligations.InitTableNeverChanges := by
  intro k s t h
  induction k generalizing s with
  | zero => cases h; rfl
  | succ k ih =>
    obtain ⟨u, hstep, hrun⟩ := run_succ_eq_next h
    exact (ih u hrun).trans (step_par_and_fb hstep).1

/-! ### A dutiful environment -/

/-- A latched frame lies in the table (R133, R136). -/
theorem frame_in_table {s : State} (h : s.Inv) (hq : s.seq = .tblOpcTx ∨ s.seq = .tblArgTx) :
    s.frmBase.toNat + s.frmLen.toNat ≤ s.par.tableLen :=
  (h.frame hq).2.trans_le h.cursorInTable

/-- Every transaction has a byte at each index below its length (R152). -/
theorem txByte_isSome {s : State} {m : Mode} (h : s.Inv) (hm : txMode s.seq = some m) {i : Nat} (hi : i < s.txLen) :
    (s.txByte i).isSome = true := by
  rw [State.txByte, if_pos hi]
  cases hq : s.seq <;> rw [hq] at hm <;> try (cases hm; done)
  case tblArgTx =>
    have hframe := frame_in_table h (.inr hq)
    simp only [State.txLen, hq] at hi
    simp only [Params.tableLen] at hframe
    simp only [State.tableRead, isSome_getElem?]
    omega
  all_goals rfl

/-- From every state with the invariant the block makes its move. -/
theorem blockMove_next {s : State} (h : s.Inv) : ∃ t, blockMove exec s = .next t := by
  cases hm : txMode s.seq with
  | some m =>
    rw [blockMove_transmits hm (frame_in_table h)]
    refine sendCycle_next _ _ fun hx => ?_
    obtain ⟨-, hi, -⟩ := h.tx.stream m hm hx
    exact txByte_isSome h hm hi
  | none =>
    cases hq : s.seq <;> rw [hq] at hm <;> try (cases hm; done)
    case tblDecode =>
      rw [blockMove_of_fetch (i := decodeGroup (s.par.initTable.drop s.cursor.toNat)) (by simp [fetch, hq])]
      rcases decodeGroup_cases (s.par.initTable.drop s.cursor.toNat) with hd | ⟨_, hd⟩ | ⟨_, _, _, _, _, _, hd⟩ <;>
        rw [hd] <;> exact ⟨_, rfl⟩
    all_goals
      simp only [blockMove, fetch, unitMove, hq]
      exact ⟨_, rfl⟩

/-- Settles O48: the state that the block sees has the invariant, so the block makes its move, and an admitted access
lets the host make its own. -/
theorem dutifulStepsGoOn : Obligations.DutifulStepsGoOn := by
  intro s h hd
  obtain ⟨v, hstep⟩ := step_next hd
  rw [hstep]
  split_ifs
  · exact ⟨_, rfl⟩
  · obtain ⟨b, hblock⟩ := blockMove_next (inv_respond (inv_stored h hd.2) v)
    have hpins : b.pins = s.pins := (blockMove_pins hblock).trans rfl
    obtain ⟨u, hwrite, -⟩ := hostWriteMove_effect (s := b) (by rw [hpins]; exact hd.1)
    rw [hblock, andThen_next, hwrite]
    exact ⟨_, rfl⟩

end Sys2Proof.Proofs

/-! The three encodings (30_encoding.md): the shapes that the bytes from CURSOR can have, the name of a frame, the host operation at each offset; decode and encode are each other's inverse on what an encoding can hold. -/

namespace Sys2Proof.Proofs

open Sys2Proof.Machine Sys2Proof.Laws

/-! ### Table groups -/

/-- A length byte 0 is the sentinel, whatever follows (R93). -/
theorem decodeGroup_zero (rest : List Byte) : decodeGroup (0 :: rest) = .tblSentinel := rfl

/-- A group that claims more bytes than remain is malformed (R130, R134). -/
theorem decodeGroup_overrun {n : Byte} {rest : List Byte} (hn : n ≠ 0) (h : rest.length < n.toNat + 1) :
    decodeGroup (n :: rest) = .malformed (some n) := by
  cases rest with
  | nil => exact if_neg hn
  | cons opc tail =>
    have hover : ¬ n.toNat ≤ tail.length := by simp at h; omega
    simp only [decodeGroup, if_neg hn, if_neg hover]

/-- A count from 1 to 255, as a length byte, is not 0 and counts the same (R90). -/
theorem lengthByte_counts {k : Nat} (hpos : 1 ≤ k) (hmax : k ≤ 255) :
    BitVec.ofNat 8 k ≠ 0 ∧ (BitVec.ofNat 8 k).toNat = k := by
  have hk : (BitVec.ofNat 8 k).toNat = k := (BitVec.toNat_ofNat k 8).trans (Nat.mod_eq_of_lt (by omega))
  refine ⟨fun h0 => ?_, hk⟩
  rw [h0] at hk
  simp at hk
  omega

/-- A group that lies whole in the bytes is read, and what follows it is not (R90, R91). -/
theorem decodeGroup_group (opc : Byte) {args : List Byte} (rest : List Byte) (hpos : 1 ≤ args.length)
    (hmax : args.length ≤ 255) :
    decodeGroup (BitVec.ofNat 8 args.length :: opc :: (args ++ rest)) = .tblGroup opc args := by
  obtain ⟨hne, hcount⟩ := lengthByte_counts hpos hmax
  simp only [decodeGroup, if_neg hne, hcount]
  simp

/-- The bytes from CURSOR are none, or begin with a sentinel, a group that overruns, or a whole group; each has its
answer (R130). -/
theorem decodeGroup_shapes (bytes : List Byte) :
    (decodeGroup bytes = .malformed none ∧ bytes = []) ∨
    (decodeGroup bytes = .tblSentinel ∧ ∃ rest, bytes = 0 :: rest) ∨
    (∃ n rest, decodeGroup bytes = .malformed (some n) ∧ bytes = n :: rest ∧ n ≠ 0 ∧ rest.length < n.toNat + 1) ∨
    ∃ opc args rest, decodeGroup bytes = .tblGroup opc args ∧ 1 ≤ args.length ∧ args.length ≤ 255 ∧
      bytes = BitVec.ofNat 8 args.length :: opc :: (args ++ rest) := by
  rcases bytes with _ | ⟨n, rest⟩
  · exact .inl ⟨rfl, rfl⟩
  by_cases hn : n = 0
  · subst hn
    exact .inr (.inl ⟨decodeGroup_zero rest, rest, rfl⟩)
  by_cases hover : rest.length < n.toNat + 1
  · exact .inr (.inr (.inl ⟨n, rest, decodeGroup_overrun hn hover, rfl, hn, hover⟩))
  rcases rest with _ | ⟨opc, tail⟩
  · simp at hover
  have hpos : n.toNat ≠ 0 := fun h0 => hn (BitVec.eq_of_toNat_eq h0)
  have hlen : (tail.take n.toNat).length = n.toNat := by simp at hover ⊢; omega
  have hlt := n.isLt
  have hbytes : n :: opc :: tail =
      BitVec.ofNat 8 (tail.take n.toNat).length :: opc :: (tail.take n.toNat ++ tail.drop n.toNat) := by
    rw [hlen, List.take_append_drop, BitVec.ofNat_toNat, BitVec.setWidth_eq]
  refine .inr (.inr (.inr ⟨opc, tail.take n.toNat, tail.drop n.toNat, ?_, by omega, by omega, hbytes⟩))
  rw [hbytes]
  exact decodeGroup_group opc _ (by omega) (by omega)

/-- Settles O2: of the four shapes of the bytes only a whole group is read as one. -/
theorem groupIsReadExactly : Obligations.GroupIsReadExactly := by
  intro bytes opc args
  refine ⟨fun h => ?_, fun ⟨hpos, hmax, rest, hbytes⟩ => hbytes ▸ decodeGroup_group opc rest hpos hmax⟩
  rcases decodeGroup_shapes bytes with ⟨hd, -⟩ | ⟨hd, -⟩ | ⟨_, _, hd, -⟩ | ⟨_, _, rest, hd, hpos, hmax, hbytes⟩ <;>
    rw [h] at hd <;> cases hd
  exact ⟨hpos, hmax, rest, hbytes⟩

/-- Settles O3: each of the four shapes of the bytes has its own answer. -/
theorem sentinelAndOverrunExactly : Obligations.SentinelAndOverrunExactly := by
  refine fun bytes => ⟨⟨fun h => ?_, ?_⟩, ⟨fun ⟨n, h⟩ => ?_, ?_⟩⟩
  · rcases decodeGroup_shapes bytes with ⟨hd, -⟩ | ⟨-, hzero⟩ | ⟨_, _, hd, -⟩ | ⟨_, _, _, hd, -⟩
    case inr.inl => exact hzero
    all_goals rw [h] at hd; cases hd
  · rintro ⟨rest, rfl⟩
    exact decodeGroup_zero rest
  · rcases decodeGroup_shapes bytes with ⟨-, hnil⟩ | ⟨hd, -⟩ | ⟨n, rest, -, rfl, hn, hover⟩ | ⟨_, _, _, hd, -⟩
    case inl => exact .inl hnil
    case inr.inr.inl => exact .inr ⟨n, rest, rfl, hn, Nat.succ_lt_succ hover⟩
    all_goals rw [h] at hd; cases hd
  · rintro (rfl | ⟨n, rest, rfl, hn, hover⟩)
    · exact ⟨none, rfl⟩
    · exact ⟨some n, decodeGroup_overrun hn (Nat.lt_of_succ_lt_succ hover)⟩

/-! ### Latched frames -/

/-- A frame that no named form has is TBL_CMD (R188). -/
theorem decodeFrame_unnamed {opc : Byte} {args : List Byte} (h : namedForms.contains (opc, args.length) = false) :
    decodeFrame opc args = .tblCmd opc args := by
  match args, h with
  | [], _ => rfl
  | [_], h | [_, _], h | [_, _, _], h => simp_all [decodeFrame, namedForms]
  | _ :: _ :: _ :: _ :: _, _ => rfl

/-! ### Host accesses -/

/-- A host operation at an aligned offset is decoded by its direction and offset (R99). -/
theorem decode_busCode (dir : Dir) {off : BitVec 8} (h : aligned off = true) (w : Word) :
    decode (busCode dir off w) = .ok (decodeAccess dir off w) := by
  cases dir with
  | read => exact decode_read (by simpa [aligned] using h) w
  | write => exact decode_write (by simpa [aligned] using h) w

/-- An aligned offset is reserved, one of the four registers', or a palette entry's (R35 to R40). -/
theorem alignedOffset_cases {off : BitVec 8} (ha : aligned off = true) :
    inReservedHi off = true ∨ inReservedLo off = true ∨ off = 0x00 ∨ off = 0x04 ∨ off = 0x08 ∨ off = 0x0C ∨
      ∃ i, off = palOffset i := by
  have hword : off.toNat % 4 = 0 := by simpa [aligned] using ha
  by_cases hhi : 0x80 ≤ off.toNat
  · exact .inl (by simpa [inReservedHi] using hhi)
  by_cases hpal : 0x40 ≤ off.toNat
  · have hoff : off = palOffset ⟨(off.toNat - 0x40) / 4, by omega⟩ := by
      apply BitVec.eq_of_toNat_eq
      simp only [palOffset, BitVec.toNat_ofNat]
      omega
    exact .inr (.inr (.inr (.inr (.inr (.inr ⟨_, hoff⟩)))))
  by_cases hlo : 0x10 ≤ off.toNat
  · exact .inr (.inl (by simp [inReservedLo]; omega))
  · bv_omega

/-- No palette entry lies at a reserved offset or at one of the four registers (R39, R40). -/
theorem palOffset_apart (i : Fin 16) :
    inReservedHi (palOffset i) = false ∧ inReservedLo (palOffset i) = false ∧ palOffset i ≠ 0x00 ∧
      palOffset i ≠ 0x04 ∧ palOffset i ≠ 0x08 ∧ palOffset i ≠ 0x0C := by
  revert i
  decide

/-- The index of a palette entry's offset is the entry's (R39, R242). -/
theorem palIndex_palOffset (i : Fin 16) : palIndex (palOffset i) = i := by
  revert i
  decide

theorem aligned_palOffset (i : Fin 16) : aligned (palOffset i) = true := by
  revert i
  decide

section
variable {off : BitVec 8} (dir : Dir) (w : Word)

theorem decodeAccess_reservedHi (h : inReservedHi off = true) : decodeAccess dir off w = .reservedHi dir off w :=
  if_pos h

/-- The two reserved ranges are disjoint, so RESERVED_LO is not hidden by the other (R40). -/
theorem decodeAccess_reservedLo (h : inReservedLo off = true) : decodeAccess dir off w = .reservedLo dir off w := by
  have hhi : inReservedHi off = false := by
    simp [inReservedLo, inReservedHi] at h ⊢
    omega
  simp [decodeAccess, hhi, h]

end

theorem decodeAccess_writePal (i : Fin 16) (w : Word) : decodeAccess .write (palOffset i) w = .writePal i w := by
  obtain ⟨hhi, hlo, h0, h4, h8, hC⟩ := palOffset_apart i
  simp only [decodeAccess, hhi, hlo, if_neg h0, if_neg h4, if_neg h8, if_neg hC, palIndex_palOffset]
  rfl

theorem decodeAccess_readPal (i : Fin 16) (w : Word) : decodeAccess .read (palOffset i) w = .readPal i := by
  obtain ⟨hhi, hlo, h0, h4, h8, hC⟩ := palOffset_apart i
  simp only [decodeAccess, hhi, hlo, if_neg h0, if_neg h4, if_neg h8, if_neg hC, palIndex_palOffset]
  rfl

/-- A write of CTRL is a well-formed operation under whichever name, and its word is kept whole (R99, R261 to R263). -/
theorem decodeCtrl_encodesBack (w : Word) :
    (decodeCtrl w).wellFormed = true ∧ encode (decodeCtrl w) = busCode .write 0x00 w := by
  unfold decodeCtrl
  split_ifs with hstart hstop
  · exact ⟨hstart, rfl⟩
  · exact ⟨by simp only [Instr.wellFormed, hstart, hstop]; rfl, rfl⟩
  · exact ⟨by simp only [Instr.wellFormed, hstart, hstop]; rfl, rfl⟩

/-- A write at offset 0 is a write of CTRL (R35, R99). -/
theorem decode_writeCtrl (w : Word) : decode (busCode .write 0x00 w) = .ok (decodeCtrl w) :=
  decode_busCode .write rfl w

/-- The operation at an aligned offset is well formed and encodes back to its direction and offset, a write to its word
too (R99). -/
theorem decodeAccess_encodesBack (dir : Dir) {off : BitVec 8} (ha : aligned off = true) (w : Word) :
    (decodeAccess dir off w).wellFormed = true ∧
      ∃ d, encode (decodeAccess dir off w) = busCode dir off d ∧ (dir = .write → d = w) := by
  rcases alignedOffset_cases ha with hhi | hlo | hregister
  · rw [decodeAccess_reservedHi dir w hhi]
    exact ⟨by simp [Instr.wellFormed, ha, hhi], w, rfl, fun _ => rfl⟩
  · rw [decodeAccess_reservedLo dir w hlo]
    exact ⟨by simp [Instr.wellFormed, ha, hlo], w, rfl, fun _ => rfl⟩
  cases dir with
  | read =>
    rcases hregister with rfl | rfl | rfl | rfl | ⟨i, rfl⟩
    case inr.inr.inr.inr =>
      rw [decodeAccess_readPal]
      exact ⟨rfl, 0, rfl, nofun⟩
    all_goals exact ⟨rfl, 0, rfl, nofun⟩
  | write =>
    rcases hregister with rfl | rfl | rfl | rfl | ⟨i, rfl⟩
    case inl =>
      obtain ⟨hwf, henc⟩ := decodeCtrl_encodesBack w
      exact ⟨hwf, w, henc, fun _ => rfl⟩
    case inr.inr.inr.inr =>
      rw [decodeAccess_writePal]
      exact ⟨rfl, w, rfl, fun _ => rfl⟩
    all_goals exact ⟨rfl, w, rfl, fun _ => rfl⟩

/-- An admitted access is the one that a direction, an aligned offset and a word make (R66, R67, R260). -/
theorem admitted_access {a : BusAccess} (h : a.admitted = true) :
    ∃ (dir : Dir) (off : BitVec 8) (w : Word), aligned off = true ∧
      a = { wr := dir = .write, rd := dir = .read, narrow := false, addr := off, wdata := w } := by
  obtain ⟨wr, rd, narrow, off, w⟩ := a
  simp only [BusAccess.admitted, Bool.and_eq_true, Bool.not_eq_true', bne_iff_ne] at h
  obtain ⟨⟨hdir, rfl⟩, ha⟩ := h
  cases wr with
  | true => exact ⟨.write, off, w, ha, by rw [(Bool.not_eq_true rd).mp hdir.symm]; rfl⟩
  | false => exact ⟨.read, off, w, ha, by rw [(Bool.not_eq_false rd).mp hdir.symm]; rfl⟩

/-- Settles O4: an access that is not admitted is REFUSED_ACCESS, which carries it whole; an admitted one is the
operation at its offset. -/
theorem hostAccessEncodesBack : Obligations.HostAccessEncodesBack := by
  intro a hp
  cases ha : a.admitted with
  | false =>
    exact ⟨.refusedAccess a, a, (decode_bus_refused_iff a).mpr ⟨hp, ha⟩, by simp [Instr.wellFormed, hp, ha], rfl, rfl,
      rfl, rfl, rfl, fun _ => rfl⟩
  | true =>
    obtain ⟨dir, off, w, halign, rfl⟩ := admitted_access ha
    obtain ⟨hwf, d, henc, hd⟩ := decodeAccess_encodesBack dir halign w
    exact ⟨_, _, decode_busCode dir halign w, hwf, henc, rfl, rfl, rfl, rfl, fun hw => hd (of_decide_eq_true hw)⟩

/-! ### Every instruction -/

/-- Settles O1: by the place the instruction's encoding is read from: the table, the command byte, the latched frame,
the converter's inputs, the host bus. -/
theorem decodeOfEncodeIsInstruction : Obligations.DecodeOfEncodeIsInstruction := by
  intro i h
  cases i with
  | tblSentinel => rfl
  | tblGroup opc args =>
    simp only [Instr.wellFormed, frameLength, Bool.and_eq_true, decide_eq_true_eq] at h
    obtain ⟨hpos, hmax⟩ := h
    have hgroup := decodeGroup_group opc [] hpos hmax
    rw [List.append_nil] at hgroup
    exact congrArg Except.ok hgroup
  | malformed n =>
    cases n with
    | none => rfl
    | some n => exact congrArg Except.ok (decodeGroup_overrun (by simpa [Instr.wellFormed] using h) (Nat.succ_pos _))
  | tblCmd opc args =>
    simp only [Instr.wellFormed, Bool.and_eq_true, Bool.not_eq_true'] at h
    obtain ⟨hlen, hname⟩ := h
    simp only [encode, decode, hlen, if_true, decodeFrame_unnamed hname]
  | reservedHi dir off w =>
    simp only [Instr.wellFormed, Bool.and_eq_true] at h
    exact (decode_busCode dir h.1 w).trans (congrArg _ (decodeAccess_reservedHi dir w h.2))
  | reservedLo dir off w =>
    simp only [Instr.wellFormed, Bool.and_eq_true] at h
    exact (decode_busCode dir h.1 w).trans (congrArg _ (decodeAccess_reservedLo dir w h.2))
  | writePal i w => exact (decode_busCode .write (aligned_palOffset i) w).trans (congrArg _ (decodeAccess_writePal i w))
  | readPal i => exact (decode_busCode .read (aligned_palOffset i) 0).trans (congrArg _ (decodeAccess_readPal i 0))
  | refusedAccess a =>
    simp only [Instr.wellFormed, Bool.and_eq_true, Bool.not_eq_true'] at h
    exact (decode_bus_refused_iff a).mpr h
  | start w | stop w | ctrlNop w =>
    simp only [Instr.wellFormed, Bool.and_eq_true, Bool.not_eq_true'] at h
    refine (decode_writeCtrl w).trans (congrArg Except.ok ?_)
    simp only [decodeCtrl, h, if_true, Bool.false_eq_true, if_false]
  | writeStatus w | writePacing w | palwr w => exact decode_busCode .write rfl w
  | readCtrl | readStatus | readPacing | readPalwr => exact decode_busCode .read rfl 0
  | swreset | slpout | dispon | ramwr => rfl
  | pwctr1 | pwctr2 | vmctr1 | vmctr2 | madctl | vscrsadd | pixfmt | frmctr1 | dfunctr => rfl
  | convert => rfl

/-! ### Words of the opcode table -/

/-- Settles O6: each word is read by `codeOfTableWord` and decoded, both by evaluation. -/
theorem sampleWordsDecode : Obligations.SampleWordsDecode := by
  unfold Obligations.SampleWordsDecode
  decide

end Sys2Proof.Proofs

/-! The command decoder's step (40_codec.md): the next state of each of its outcomes, and which bytes at CURSOR select it. -/

namespace Sys2Proof.Proofs

open Sys2Proof.Machine Sys2Proof.Laws

/-! ### The outcomes of a decode step -/

/-- Settles O10: S_TBL_DECODE is a state of bring-up, so the error ends in S_INIT_FAILED. -/
theorem sentinelAndMalformedComplete : Obligations.SentinelAndMalformedComplete := by
  refine fun s => ⟨rfl, fun n hq => ?_⟩
  have hb : s.seq.bringUp = true := by rw [hq]; rfl
  exact congrArg Host.Outcome.next (raise_bringUp hb)

/-- Settles O11: a table has at most 65535 bytes, so neither 16-bit sum of a group that fits in it truncates. -/
theorem groupLatchesFrameAndAdvances : Obligations.GroupLatchesFrameAndAdvances := by
  intro s opc args hwf hpos hmax hfit
  obtain ⟨htab, -, -⟩ := params_ranges hwf
  have hbase : (s.cursor + 2).toNat = s.cursor.toNat + 2 := by simp; omega
  have hnext : (s.cursor + BitVec.ofNat 16 (args.length + 2)).toNat = s.cursor.toNat + args.length + 2 := by simp; omega
  exact ⟨_, _, _, rfl, (lengthByte_counts hpos hmax).2, hbase, hnext, hnext.trans_le hfit⟩

/-! ### The bytes at CURSOR -/

/-- A group whose arguments all follow its opcode is read with its first `n` bytes as arguments (R130). -/
theorem decodeGroup_fits {n opc : Byte} {tail : List Byte} (hn : n ≠ 0) (h : n.toNat ≤ tail.length) :
    decodeGroup (n :: opc :: tail) = .tblGroup opc (tail.take n.toNat) := by
  simp only [decodeGroup, if_neg hn, if_pos h]

/-- In S_TBL_DECODE the block runs what the bytes from CURSOR decode to (R131). -/
theorem blockMove_tblDecode {s : State} (hq : s.seq = .tblDecode) :
    blockMove exec s = exec (decodeGroup (s.par.initTable.drop s.cursor.toNat)) s :=
  blockMove_of_fetch (by simp [fetch, hq])

/-- A byte that the table has is the first of those from its offset on (R62). -/
theorem drop_of_tableRead {s : State} {c : Nat} {b : Byte} (h : s.tableRead c = some b) :
    ∃ rest, s.par.initTable.drop c = b :: rest ∧ c + rest.length + 1 = s.par.tableLen := by
  obtain ⟨hc, rfl⟩ := List.getElem?_eq_some_iff.mp h
  refine ⟨_, List.drop_eq_getElem_cons hc, ?_⟩
  simp only [List.length_drop, Params.tableLen]
  omega

/-- A decode step that finds a truncated table raises MalformedTable (R134). -/
theorem blockMove_malformed {s : State} {n : Option Byte} (hq : s.seq = .tblDecode)
    (hd : decodeGroup (s.par.initTable.drop s.cursor.toNat) = .malformed n) :
    blockMove exec s = .next { s with err := .malformedTable, seq := .initFailed } := by
  rw [blockMove_tblDecode hq, hd]
  exact (sentinelAndMalformedComplete s).2 n hq

/-- A decode step that finds a group inside the table reads its opcode after the length byte and latches it (R133). -/
theorem blockMove_group {s : State} {n : Byte} (hwf : s.par.wf = true) (hq : s.seq = .tblDecode)
    (hread : s.tableRead s.cursor.toNat = some n) (hn : n ≠ 0)
    (hfit : s.cursor.toNat + n.toNat + 2 ≤ s.par.tableLen) :
    ∃ (opc : Byte) (base next : BitVec 16),
      s.tableRead (s.cursor.toNat + 1) = some opc ∧ base.toNat = s.cursor.toNat + 2 ∧
      next.toNat = s.cursor.toNat + n.toNat + 2 ∧
      blockMove exec s = .next { s with
        frmLen := n, frmOpc := opc, frmBase := base, cursor := next, seq := .tblOpcTx, txs := .setup, txIdx := 0 } := by
  obtain ⟨rest, hdrop, hlen⟩ := drop_of_tableRead hread
  obtain _ | ⟨opc, tail⟩ := rest
  · simp at hlen; omega
  have htail : n.toNat ≤ tail.length := by simp at hlen; omega
  have hargs : (tail.take n.toNat).length = n.toNat := List.length_take_of_le htail
  have hpos : n.toNat ≠ 0 := fun h0 => hn (BitVec.eq_of_toNat_eq h0)
  have hopc : s.tableRead (s.cursor.toNat + 1) = some opc := by
    rw [State.tableRead, ← List.getElem?_drop, hdrop]; rfl
  obtain ⟨len, base, next, hexec, hcount, hbase, hnext, -⟩ := groupLatchesFrameAndAdvances s opc (tail.take n.toNat)
    hwf (by omega) (by have := n.isLt; omega) (by omega)
  obtain rfl : len = n := BitVec.eq_of_toNat_eq (hcount.trans hargs)
  rw [hargs] at hnext
  refine ⟨opc, base, next, hopc, hbase, hnext, ?_⟩
  rw [blockMove_tblDecode hq, hdrop, decodeGroup_fits hn htail, hexec]

/-- Settles O12: no byte from CURSOR on, else the length byte says which of R130's other outcomes it is. -/
theorem decodeStepFollowsTheTable : Obligations.DecodeStepFollowsTheTable := by
  refine fun s hwf hq => ⟨fun hend => ?noByte, fun n hread => ⟨fun hn => ?sentinel, fun hn hover => ?overrun,
    blockMove_group hwf hq hread⟩⟩
  case noByte =>
    refine blockMove_malformed (n := none) hq ?_
    rw [List.drop_eq_nil_of_le hend]
    rfl
  all_goals obtain ⟨rest, hdrop, hlen⟩ := drop_of_tableRead hread
  case sentinel =>
    rw [blockMove_tblDecode hq, hdrop, hn, decodeGroup_zero]
    exact (sentinelAndMalformedComplete s).1
  case overrun =>
    refine blockMove_malformed (n := some n) hq ?_
    rw [hdrop]
    exact decodeGroup_overrun hn (by omega)

end Sys2Proof.Proofs

/-! The protocol engine (41_protocol_engine.md): each cycle of a transaction, what a panel command sends and what its response leads to, in which cycles the log gains an entry, what the host's operations leave of the engine, and that the block's move does not see the host's access. -/

namespace Sys2Proof.Proofs

open Sys2Proof.Machine Sys2Proof.Laws

/-! ### The cycles of a transaction -/

section
variable {m : Mode} {len : Nat} {byteAt : Nat → Option Byte} {onOk onErr : State → State} {s : State} {b : Byte}

theorem sendCycle_setup (hx : s.txs = .setup) :
    sendCycle m len byteAt onOk onErr s = .next { s with dc := m, txs := .stream, txIdx := 0, sent := [] } := by
  simp only [sendCycle, hx]

theorem sendCycle_stall (hx : s.txs = .stream) (hb : byteAt s.txIdx = some b) (hr : s.pins.txReady = false) :
    sendCycle m len byteAt onOk onErr s = .next s := by
  simp [sendCycle, hx, hb, hr]

theorem sendCycle_lastByte (hx : s.txs = .stream) (hb : byteAt s.txIdx = some b) (hr : s.pins.txReady = true)
    (hlast : s.txIdx + 1 = len) :
    sendCycle m len byteAt onOk onErr s = .next { s with txs := .wait, sent := s.sent ++ [b] } := by
  simp [sendCycle, hx, hb, hr, hlast]

theorem sendCycle_nextByte (hx : s.txs = .stream) (hb : byteAt s.txIdx = some b) (hr : s.pins.txReady = true)
    (hmore : s.txIdx + 1 ≠ len) :
    sendCycle m len byteAt onOk onErr s = .next { s with txIdx := s.txIdx + 1, sent := s.sent ++ [b] } := by
  simp [sendCycle, hx, hb, hr, hmore]

theorem sendCycle_unanswered (hx : s.txs = .wait) (hv : s.pins.rspValid = false) :
    sendCycle m len byteAt onOk onErr s = .next s := by
  simp [sendCycle, hx, hv]

theorem sendCycle_ok (hx : s.txs = .wait) (hv : s.pins.rspValid = true) (he : s.pins.rspErr = false) :
    sendCycle m len byteAt onOk onErr s = .next (onOk (complete .ok s)) := by
  simp [sendCycle, State.response, hx, hv, he]

theorem sendCycle_err (hx : s.txs = .wait) (hv : s.pins.rspValid = true) (he : s.pins.rspErr = true) :
    sendCycle m len byteAt onOk onErr s = .next (onErr (complete .err s)) := by
  simp [sendCycle, State.response, hx, hv, he]

end

/-! ### What a panel command sends -/

/-- Every panel command runs a cycle of the transaction that R152 gives it. -/
theorem exec_of_sends {i : Instr} {s : State} {m : Mode} {bytes : List Byte} (h : i.sends s = some (m, bytes)) :
    ∃ onOk onErr, exec i s = sendList m bytes onOk onErr s := by
  cases hf : i.frameOf with
  | some f =>
    have hfixed : i.fixedByte s.par = none := by cases i <;> cases hf <;> rfl
    rw [exec_of_frameOf hf, frameCycle]
    simp only [Instr.sends, hfixed, hf, Option.some.injEq] at h
    split_ifs at h ⊢ <;> cases h <;> exact ⟨_, _, rfl⟩
  | none =>
    cases i
    case swreset | slpout | dispon | ramwr => cases h; exact ⟨_, _, rfl⟩
    all_goals cases hf <;> cases h

/-- Settles O13: the first cycle of the command's transaction. -/
theorem setupDrivesModeSelect : Obligations.SetupDrivesModeSelect := by
  intro i s m bytes h hx
  obtain ⟨onOk, onErr, hexec⟩ := exec_of_sends h
  exact hexec.trans (sendCycle_setup hx)

/-- Settles O14: a stream cycle of the command's transaction, and a cycle of its wait. -/
theorem handshakeSendsTheIndexedByte : Obligations.HandshakeSendsTheIndexedByte := by
  intro i s m bytes h
  obtain ⟨onOk, onErr, hexec⟩ := exec_of_sends h
  rw [hexec]
  exact ⟨fun hx b hb => ⟨sendCycle_stall hx hb, sendCycle_lastByte hx hb, sendCycle_nextByte hx hb⟩,
    sendCycle_unanswered⟩

/-- Settles O22: both run the two transactions of the frame. -/
theorem namedCommandsActAsAnyFrame : Obligations.NamedCommandsActAsAnyFrame := fun s _ _ _ h =>
  exec_of_frameOf h s

/-! ### The response -/

/-- Where the response is awaited, all the bytes of the transaction have been handed over in order (R63, R151). -/
theorem sent_eq {s : State} {m : Mode} (h : s.Inv) (hm : txMode s.seq = some m) (hx : s.txs = .wait)
    (hq : s.seq ≠ .rlPixTx) {bytes : List Byte} (hlen : bytes.length = s.txLen)
    (hbytes : ∀ j, j < bytes.length → bytes[j]? = s.txByte j) : s.sent = bytes := by
  obtain ⟨-, hsent⟩ := h.tx.wait m hm hx
  refine List.ext_getElem? fun j => ?_
  by_cases hj : j < s.sent.length
  · rw [h.sentBytes m hm hq (by simp [hx]) j hj, hbytes j (by omega)]
  · rw [List.getElem?_eq_none (by omega), List.getElem?_eq_none (by omega)]

/-- The entry of the log is the transaction of R152, and its result the response (R150). -/
theorem sendList_completes {s : State} {m : Mode} {bytes : List Byte} (h : s.Inv) (hm : txMode s.seq = some m)
    (hx : s.txs = .wait) (hv : s.pins.rspValid = true) (hsent : s.sent = bytes) (onOk onErr : State → State) :
    (s.pins.rspErr = false → sendList m bytes onOk onErr s = .next (onOk
      { s with log := s.log ++ [{ mode := m, bytes := bytes, result := .ok }], sent := [] })) ∧
    (s.pins.rspErr = true → sendList m bytes onOk onErr s = .next (onErr
      { s with log := s.log ++ [{ mode := m, bytes := bytes, result := .err }], sent := [] })) := by
  obtain ⟨hdc, -⟩ := h.tx.wait m hm hx
  rw [← hdc, ← hsent]
  exact ⟨sendCycle_ok hx hv, sendCycle_err hx hv⟩

/-- The same for a COMMAND transaction, whose one byte is that of its state (R10, R95). -/
theorem sendCommand_completes {s : State} {b : Byte} (h : s.Inv) (hm : txMode s.seq = some .command)
    (hx : s.txs = .wait) (hv : s.pins.rspValid = true) (hb : s.txByte 0 = some b) (onOk onErr : State → State) :
    (s.pins.rspErr = false → sendCommand b onOk onErr s = .next (onOk
      { s with log := s.log ++ [{ mode := .command, bytes := [b], result := .ok }], sent := [] })) ∧
    (s.pins.rspErr = true → sendCommand b onOk onErr s = .next (onErr
      { s with log := s.log ++ [{ mode := .command, bytes := [b], result := .err }], sent := [] })) := by
  have hsent : s.sent = [b] := by
    refine sent_eq h hm hx (fun hq => ?_) (txLen_command hm).symm fun j hj => ?_
    · simp [hq, txMode] at hm
    obtain rfl : j = 0 := Nat.lt_one_iff.mp hj
    exact hb.symm
  exact sendList_completes h hm hx hv hsent onOk onErr

/-- Settles O15: SWRESET's byte is logged with its result; the log and the bytes handed over are the model's own
observations (log 12). -/
theorem swresetCompletes : Obligations.SwresetCompletes := by
  intro s h hq hx hv
  have hbyte : s.txByte 0 = some s.par.opcSwreset := by simp [State.txByte, State.txLen, hq, txMode]
  obtain ⟨hok, herr⟩ := sendCommand_completes h (by rw [hq]; rfl) hx hv hbyte (afterSwreset false) (afterSwreset true)
  cases he : s.pins.rspErr with
  | false => rw [State.response, he]; exact hok he
  | true => rw [State.response, he]; exact herr he

/-- Settles O16: S_SLP_TX is a state of bring-up, so its err ends in S_INIT_FAILED. -/
theorem slpoutCompletes : Obligations.SlpoutCompletes := by
  intro s h hq hx hv
  have hbyte : s.txByte 0 = some s.par.opcSlpout := by simp [State.txByte, State.txLen, hq, txMode]
  obtain ⟨hok, herr⟩ := sendCommand_completes h (by rw [hq]; rfl) hx hv hbyte
    (goWait .slpWait s.par.settleMs) (raise .transport)
  exact ⟨hok, fun he => (herr he).trans (congrArg _ (raise_bringUp (by rw [hq]; rfl)))⟩

/-- Settles O17: S_DON_TX is a state of bring-up, so its err ends in S_INIT_FAILED. -/
theorem disponCompletes : Obligations.DisponCompletes := by
  intro s h hq hx hv
  have hbyte : s.txByte 0 = some s.par.opcDispon := by simp [State.txByte, State.txLen, hq, txMode]
  obtain ⟨hok, herr⟩ := sendCommand_completes h (by rw [hq]; rfl) hx hv hbyte
    (goWait .donWait s.par.settleMs) (raise .transport)
  exact ⟨hok, fun he => (herr he).trans (congrArg _ (raise_bringUp (by rw [hq]; rfl)))⟩

/-- The table command that is fetched has the opcode and the arguments of the latched frame (R27, R62). -/
theorem frameOf_fetched {s : State} {i : Instr} {opc : Byte} {args : List Byte} (h : s.Inv)
    (hq : s.seq = .tblOpcTx ∨ s.seq = .tblArgTx) (hi : fetch s = .instr i) (hf : i.frameOf = some (opc, args)) :
    opc = s.frmOpc ∧ args.length = s.frmLen.toNat ∧
      ∀ j, j < args.length → args[j]? = s.tableRead (s.frmBase.toNat + j) := by
  obtain ⟨i', args', hi', -, hf', hlen, hbytes⟩ := latchedFrameIsFetched s h hq
  cases hi.symm.trans hi'
  cases hf.symm.trans hf'
  exact ⟨rfl, hlen, hbytes⟩

/-- Settles O19: the latched frame has arguments, so they follow. -/
theorem tableCommandOpcodeCompletes : Obligations.TableCommandOpcodeCompletes := by
  intro s i opc args h hq hx hv hi hf
  obtain ⟨rfl, -, -⟩ := frameOf_fetched h (.inl hq) hi hf
  have hexec : exec i s = sendCommand s.frmOpc afterOpcode (raise .transport) s := by
    rw [exec_of_frameOf hf, frameCycle, if_neg (by simp [hq])]
  have hbyte : s.txByte 0 = some s.frmOpc := by simp [State.txByte, State.txLen, hq, txMode]
  obtain ⟨hok, herr⟩ := sendCommand_completes h (by rw [hq]; rfl) hx hv hbyte afterOpcode (raise .transport)
  rw [hexec]
  refine ⟨fun he => ?_, fun he => (herr he).trans (congrArg _ (raise_bringUp (by rw [hq]; rfl)))⟩
  rw [hok he, afterOpcode, if_pos (h.frame (.inl hq)).1]
  rfl

/-- Settles O20: the bytes handed over are the arguments of the latched frame, one by one. -/
theorem tableCommandArgumentsComplete : Obligations.TableCommandArgumentsComplete := by
  intro s i opc args h hq hx hv hi hf
  obtain ⟨-, hlen, hbytes⟩ := frameOf_fetched h (.inr hq) hi hf
  have hexec : exec i s = sendList .data args (goTo .tblDecode) (raise .transport) s := by
    rw [exec_of_frameOf hf, frameCycle, if_pos hq]
  have hm : txMode s.seq = some .data := by rw [hq]; rfl
  have htx : s.txLen = s.frmLen.toNat := by simp [State.txLen, hq]
  have hsent : s.sent = args := sent_eq h hm hx (by simp [hq]) (hlen.trans htx.symm) fun j hj => by
    rw [hbytes j hj, State.txByte, if_pos (by omega), hq]
  obtain ⟨hok, herr⟩ := sendList_completes h hm hx hv hsent (goTo .tblDecode) (raise .transport)
  rw [hexec]
  exact ⟨hok, fun he => (herr he).trans (congrArg _ (raise_bringUp (by rw [hq]; rfl)))⟩

/-! ### The transitions of the sequencer and the log -/

/-- What every transition of the sequencer keeps: the log; and none of them enters `S_IDLE`. -/
structure Onward (s t : State) : Prop where
  log : t.log = s.log
  idle : t.seq = .idle → s.seq = .idle

theorem onward_raise (e : Err) (s : State) : Onward s (raise e s) :=
  ⟨rfl, by rw [raise_seq]; split_ifs <;> nofun⟩

theorem onward_afterOk {q : Seq} {m : Mode} (hm : txMode q = some m) (s : State) : Onward s (afterOk q s) := by
  cases q <;> try (cases hm; done)
  case tblOpcTx => simp only [afterOk, afterOpcode]; split_ifs <;> exact ⟨rfl, nofun⟩
  all_goals exact ⟨rfl, nofun⟩

theorem onward_afterErr (q : Seq) (s : State) : Onward s (afterErr q s) := by
  cases q
  case rstTx => exact ⟨rfl, nofun⟩
  all_goals exact onward_raise _ s

theorem onward_delayEnd {f : State → State} (hf : DelayEnd f) (s : State) : Onward s (f s) := by
  rcases hf with rfl | rfl | rfl | rfl
  · unfold afterResetDelay
    split_ifs
    · exact onward_raise _ s
    · exact ⟨rfl, nofun⟩
  all_goals exact ⟨rfl, nofun⟩

/-- A cycle of a transaction is a transition from the same log, but where the response completes it (R150). -/
theorem onward_transmit {s t : State} {m : Mode} (hm : txMode s.seq = some m)
    (h : sendCycle m s.txLen s.txByte (afterOk s.seq) (afterErr s.seq) s = .next t) :
    (t.seq = s.seq ∧ t.log = s.log) ∨
      s.txs = .wait ∧ s.pins.rspValid = true ∧ Onward (complete s.response s) t := by
  rcases sendCycle_cases h with ⟨-, rfl⟩ | ⟨-, -, rfl⟩ | ⟨_, -, -, -, rfl⟩ | ⟨_, -, -, -, rfl⟩ | ⟨-, -, rfl⟩ |
    ⟨hx, hv, hr, rfl⟩ | ⟨hx, hv, hr, rfl⟩
  · exact .inl ⟨rfl, rfl⟩
  · exact .inl ⟨rfl, rfl⟩
  · exact .inl ⟨rfl, rfl⟩
  · exact .inl ⟨rfl, rfl⟩
  · exact .inl ⟨rfl, rfl⟩
  · exact .inr ⟨hx, hv, hr ▸ onward_afterOk hm _⟩
  · exact .inr ⟨hx, hv, hr ▸ onward_afterErr _ _⟩

/-- The block's move is a transition from the same log, but where a response completes a transaction. -/
theorem onward_blockMove {s t : State} (h : blockMove exec s = .next t) :
    Onward s t ∨
      ∃ m, txMode s.seq = some m ∧ s.txs = .wait ∧ s.pins.rspValid = true ∧ Onward (complete s.response s) t := by
  rcases blockMove_cases h with ⟨m, hm, hsend⟩ | ⟨-, f, rfl, hf⟩ | ⟨-, i, hi, hform⟩ | ⟨-, rfl⟩ | ⟨-, rfl⟩
  · exact (onward_transmit hm hsend).imp (fun ⟨hseq, hlog⟩ => ⟨hlog, fun hq => hseq ▸ hq⟩) fun hdone => ⟨m, hm, hdone⟩
  · left
    rcases waitCycle_cases f s with ⟨-, hw⟩ | ⟨-, -, hw⟩ | ⟨-, -, hw⟩ <;> rw [hw]
    · exact onward_delayEnd hf s
    · exact ⟨rfl, id⟩
    · exact ⟨rfl, id⟩
  · left
    rcases hform with rfl | ⟨_, rfl⟩ | ⟨_, _, rfl⟩ <;> cases hi
    · exact ⟨rfl, nofun⟩
    · exact onward_raise _ s
    · exact ⟨rfl, nofun⟩
  · left
    unfold loopTop
    split_ifs <;> exact ⟨rfl, nofun⟩
  · exact .inl ⟨rfl, id⟩

theorem startBringUp_log (s : State) : (startBringUp s).log = s.log := by
  obtain ⟨_, _, _, _, _, h⟩ := startBringUp_fields s
  rw [h]

/-- A step keeps the log or adds what has been handed over to it, where the response comes (R150); block reset and the
host's write keep it. -/
theorem step_log {s t : State} (h : step s = .next t) :
    t.log = s.log ∨
      ∃ m, txMode s.seq = some m ∧ s.txs = .wait ∧ s.pins.rspValid = true ∧
        t.log = s.log ++ [{ mode := s.dc, bytes := s.sent, result := s.response }] := by
  cases hr : s.pins.rst with
  | true =>
    obtain ⟨-, -, v, ⟨-, rfl⟩ | ⟨hr', -⟩⟩ := step_cases h
    · exact .inl rfl
    · rw [hr] at hr'; cases hr'
  | false =>
    obtain ⟨v, b, u, w, hblock, -, hw, hu, -, -, -, rfl⟩ := step_work h hr
    have hlog : (clockTick u).log = b.log := by
      have huw : u.log = w.log := by rw [hu]
      rcases hw with rfl | ⟨-, rfl⟩
      · exact huw
      · exact huw.trans (startBringUp_log b)
    rw [hlog]
    rcases onward_blockMove hblock with hmove | ⟨m, hm, hx, hv, hmove⟩
    · exact .inl hmove.log
    · exact .inr ⟨m, hm, hx, hv, hmove.log⟩

/-- Settles O24: the invariant says of what has been handed over that it is the state's transaction. -/
theorem logGainsTheStatesTransaction : Obligations.LogGainsTheStatesTransaction := by
  intro s t hs h
  refine (step_log h).imp id fun ⟨m, hm, hx, hv, hlog⟩ => ?_
  obtain ⟨hdc, hlen⟩ := hs.tx.wait m hm hx
  exact ⟨m, s.sent, hm, hx, hv, hdc ▸ hlog, hlen,
    fun hq j hj => hs.sentBytes m hm hq (by simp [hx]) j (hlen.symm ▸ hj)⟩

/-! ### The step outside S_IDLE -/

/-- Outside `S_IDLE` a step without block reset leaves the engine where the block's move does: START is ignored
(R154, R261). -/
theorem step_engine {s t : State} (hq : s.seq ≠ .idle) (hr : s.pins.rst = false) (h : step s = .next t) :
    ∃ v b, blockMove exec (respond v s.stored) = .next b ∧ b.EngineSame t := by
  obtain ⟨v, b, u, w, hblock, -, hw, hu, -, -, -, rfl⟩ := step_work h hr
  have hb : b.seq ≠ .idle := fun hidle => by
    rcases onward_blockMove hblock with hmove | ⟨_, -, -, -, hmove⟩ <;> exact hq (hmove.idle hidle)
  obtain rfl : w = b := hw.resolve_right fun ⟨hidle, _⟩ => hb hidle
  refine ⟨v, w, hblock, ?_⟩
  rw [hu]
  constructor <;> rfl

/-- In a transmitting state that is a cycle of the state's transaction, on the buffer with the cycle's stores. -/
theorem step_transmits {s t : State} {m : Mode} (hm : txMode s.seq = some m) (hr : s.pins.rst = false)
    (h : step s = .next t) :
    ∃ v b, sendCycle m s.txLen s.opened.txByte (afterOk s.seq) (afterErr s.seq) (respond v s.stored) = .next b ∧
      b.EngineSame t := by
  obtain ⟨v, b, hblock, hsame⟩ := step_engine (by rintro hq; simp [hq, txMode] at hm) hr h
  exact ⟨v, b, blockMove_tx (s := respond v s.stored) hm hblock, hsame⟩

/-- Settles O26: every other cycle of a transaction stays in its state. -/
theorem onlyTheResponseEndsATransaction : Obligations.OnlyTheResponseEndsATransaction := by
  intro s t m hr hm h hno
  obtain ⟨v, b, hsend, hsame⟩ := step_transmits hm hr h
  rw [hsame.seq, hsame.log]
  refine (onward_transmit (s := respond v s.stored) hm hsend).resolve_right fun ⟨hx, hv, _⟩ => ?_
  exact Bool.false_ne_true ((hno hx).symm.trans hv)

/-- In the stream of a transmitting state the port offers the byte at TX_IDX (R151). -/
theorem txPort_stream {s : State} {m : Mode} (h : s.Inv) (hm : txMode s.seq = some m) (hx : s.txs = .stream) :
    ∃ b, s.txByte s.txIdx = some b ∧ s.txPort = { valid := true, data := b, last := s.txIdx + 1 = s.txLen } := by
  obtain ⟨-, hlt, -⟩ := h.tx.stream m hm hx
  obtain ⟨b, hb⟩ := Option.isSome_iff_exists.mp (txByte_isSome h hm hlt)
  exact ⟨b, hb, by rw [State.txPort, if_pos hx, hb]⟩

/-- Settles O23: the state that the block sees has the invariant, so its port has a byte, and that is the one the cycle
hands over. The writer's stores of the cycle count (log 7). -/
theorem stepHandsOverThePortByte : Obligations.StepHandsOverThePortByte := by
  intro s t m hs hr hm hx h
  obtain ⟨hst, -, -⟩ := step_cases h
  obtain ⟨v, u, hsend, hsame⟩ := step_transmits hm hr h
  obtain ⟨b, hb, hport⟩ := txPort_stream (s := s.opened) (inv_respond (inv_stored hs hst) 0) hm hx
  rw [hport, hsame.seq, hsame.dc, hsame.log, hsame.sent, hsame.txs, hsame.txIdx]
  cases hready : s.pins.txReady with
  | false =>
    cases (sendCycle_stall (s := respond v s.stored) hx hb hready).symm.trans hsend
    exact ⟨rfl, rfl, rfl, rfl, nofun, fun _ => ⟨rfl, hx, rfl⟩⟩
  | true =>
    by_cases hlast : s.txIdx + 1 = s.txLen
    · cases (sendCycle_lastByte (s := respond v s.stored) hx hb hready hlast).symm.trans hsend
      exact ⟨rfl, rfl, rfl, rfl, fun _ => ⟨rfl, iff_of_true rfl (decide_eq_true hlast)⟩, nofun⟩
    · cases (sendCycle_nextByte (s := respond v s.stored) hx hb hready hlast).symm.trans hsend
      have hwait : s.txs ≠ .wait := by simp [hx]
      exact ⟨rfl, rfl, rfl, rfl, fun _ => ⟨rfl, iff_of_false hwait fun h' => hlast (of_decide_eq_true h')⟩, nofun⟩

/-! ### The host's operations -/

/-- Settles O45, by the operation: a read answers, a write goes to its own register of the host. -/
theorem hostOperationsLeaveEngine : Obligations.HostOperationsLeaveEngine := by
  intro i s t hi hstart h
  cases i <;> try (cases hi; done)
  case start w => exact absurd rfl (hstart w)
  case stop w =>
    cases h
    exact ⟨by constructor <;> rfl, fun _ => rfl, fun hne => absurd rfl (hne w), fun _ => rfl, fun _ => rfl⟩
  case writePacing w =>
    cases h
    exact ⟨by constructor <;> rfl, fun _ => rfl, fun _ => rfl, fun hne => absurd rfl (hne w), fun _ => rfl⟩
  case palwr w =>
    simp only [exec, execPalwr] at h
    split_ifs at h <;> cases h <;>
      exact ⟨by constructor <;> rfl, fun _ => rfl, fun _ => rfl, fun _ => rfl, fun hne => absurd rfl (hne w)⟩
  case reservedHi dir _ _ | reservedLo dir _ _ =>
    cases dir <;> cases h <;> exact ⟨by constructor <;> rfl, fun _ => rfl, fun _ => rfl, fun _ => rfl, fun _ => rfl⟩
  case refusedAccess => cases h
  all_goals
    cases h
    exact ⟨by constructor <;> rfl, fun _ => rfl, fun _ => rfl, fun _ => rfl, fun _ => rfl⟩

/-! ### What the block's move does not look at -/

theorem engineSame_symm {s t : State} (h : s.EngineSame t) : t.EngineSame s := by
  cases h; constructor <;> symm <;> assumption

theorem engineSame_trans {s t u : State} (h : s.EngineSame t) (k : t.EngineSame u) : s.EngineSame u :=
  ⟨k.par.trans h.par, k.seq.trans h.seq, k.txs.trans h.txs, k.txIdx.trans h.txIdx, k.cursor.trans h.cursor,
    k.frmOpc.trans h.frmOpc, k.frmLen.trans h.frmLen, k.frmBase.trans h.frmBase, k.pendErr.trans h.pendErr,
    k.msLeft.trans h.msLeft, k.pre.trans h.pre, k.dc.trans h.dc, k.err.trans h.err, k.fb.trans h.fb,
    k.sent.trans h.sent, k.log.trans h.log⟩

/-- The engine of `s`, with its CANCEL_REQ and PACING_MS, beside the palette, the host side's observations and the inputs
of `h`. -/
def beside (h s : State) : State :=
  { s with pal := h.pal, rdata := h.rdata, convOut := h.convOut, inputs := h.inputs, cycle := h.cycle }

theorem engineSame_beside (h s : State) : s.EngineSame (beside h s) := by constructor <;> rfl

/-- The environment drives the same in both cycles, but for the host's access. -/
def SameButBus (p q : Pins) : Prop := p = { q with bus := p.bus }

section
variable (h s : State)

theorem afterOk_beside (q : Seq) : afterOk q (beside h s) = beside h (afterOk q s) := by
  cases q
  case tblOpcTx => exact (apply_ite (beside h) (1 ≤ s.frmLen.toNat) (goTx .tblArgTx s) (goTo .tblDecode s)).symm
  all_goals rfl

theorem afterErr_beside (q : Seq) : afterErr q (beside h s) = beside h (afterErr q s) := by
  cases q <;> rfl

theorem delayEnd_beside {f : State → State} (hf : DelayEnd f) : f (beside h s) = beside h (f s) := by
  rcases hf with rfl | rfl | rfl | rfl
  · exact (apply_ite (beside h) (s.pendErr = true) (raise .transport s) (goTo .tblDecode { s with cursor := 0 })).symm
  all_goals rfl

theorem waitCycle_beside {f : State → State} (hf : DelayEnd f) :
    waitCycle f (beside h s) = beside h (waitCycle f s) := by
  unfold waitCycle
  rw [apply_ite (beside h), apply_ite (beside h), delayEnd_beside h s hf]
  rfl

theorem loopTop_beside : loopTop (beside h s) = beside h (loopTop s) :=
  (apply_ite (beside h) (s.cancelReq = true) (goTo .stopped s) (goWait .rlPace s.pacingMs s)).symm

end

section
variable {h s t u : State}

theorem pins_beside (hp : SameButBus h.pins s.pins) : (beside h s).pins = { s.pins with bus := h.pins.bus } := hp

theorem sendCycle_beside {m : Mode} {len : Nat} {byteAt : Nat → Option Byte} {onOk onErr : State → State}
    (hp : SameButBus h.pins s.pins) (hOk : ∀ x, onOk (beside h x) = beside h (onOk x))
    (hErr : ∀ x, onErr (beside h x) = beside h (onErr x)) :
    sendCycle m len byteAt onOk onErr (beside h s) =
      andThen (sendCycle m len byteAt onOk onErr s) fun t => .next (beside h t) := by
  have hunit : (beside h s).txs = s.txs ∧ (beside h s).txIdx = s.txIdx := ⟨rfl, rfl⟩
  simp only [sendCycle, State.response, pins_beside hp, hunit]
  cases s.txs with
  | setup => rfl
  | stream =>
    cases byteAt s.txIdx with
    | none => rfl
    | some b => simp only []; split_ifs <;> rfl
  | wait =>
    cases s.pins.rspValid with
    | false => rfl
    | true =>
      cases s.pins.rspErr with
      | false => exact congrArg Host.Outcome.next (hOk (complete .ok s))
      | true => exact congrArg Host.Outcome.next (hErr (complete .err s))

/-- The block's move looks at no palette entry, at nothing that the host's side observes, and at no host access
(R79, R154, R243). -/
theorem blockMove_beside (hp : SameButBus h.pins s.pins) (ht : blockMove exec s = .next t)
    (hu : blockMove exec (beside h s) = .next u) : u = beside h t := by
  cases hm : txMode s.seq with
  | some m =>
    have hsend : sendCycle m s.txLen s.txByte (afterOk s.seq) (afterErr s.seq) (beside h s) = .next (beside h t) := by
      rw [sendCycle_beside hp (afterOk_beside h · _) (afterErr_beside h · _), blockMove_tx hm ht, andThen_next]
    exact Host.Outcome.next.inj ((blockMove_tx (s := beside h s) hm hu).symm.trans hsend)
  | none =>
    cases hq : s.seq <;> rw [hq] at hm <;> try (cases hm; done)
    case tblDecode =>
      rw [blockMove_tblDecode hq] at ht
      rw [blockMove_tblDecode (s := beside h s) hq, show (beside h s).cursor = s.cursor from rfl,
        show (beside h s).par = s.par from rfl] at hu
      rcases decodeGroup_cases (s.par.initTable.drop s.cursor.toNat) with hd | ⟨_, hd⟩ | ⟨_, _, _, _, _, _, hd⟩ <;>
        rw [hd] at ht hu <;> cases ht <;> cases hu <;> rfl
    all_goals
      have hq' : (beside h s).seq = _ := hq
      simp only [blockMove, fetch, unitMove, hq, hq', Host.Outcome.next.injEq] at ht hu
      subst ht hu
    case rlTop => exact loopTop_beside h s
    case rstWait | slpWait | donWait | rlPace => exact waitCycle_beside h s (by simp [DelayEnd])
    all_goals rfl

/-- The states that the block sees in the two cycles differ in the host's side alone. -/
theorem stored_beside (hp : SameButBus h.pins s.pins) (v w : Word) :
    respond w (beside h s).stored = beside (respond w h) (respond v s.stored) := by
  have hst : (beside h s).pins.stores = s.pins.stores := by rw [pins_beside hp]
  rw [State.stored, hst]
  rfl

/-- Outside `S_IDLE` two steps that differ in the host's side alone lead to the same engine (R154). -/
theorem step_beside (hq : s.seq ≠ .idle) (hp : SameButBus h.pins s.pins) (ht : step s = .next t)
    (hu : step (beside h s) = .next u) : t.EngineSame u := by
  have hrst : (beside h s).pins.rst = s.pins.rst := by rw [pins_beside hp]
  cases hr : s.pins.rst with
  | true =>
    obtain ⟨-, -, v, ⟨-, rfl⟩ | ⟨hr', -⟩⟩ := step_cases ht
    · obtain ⟨-, -, w, ⟨-, rfl⟩ | ⟨hr', -⟩⟩ := step_cases hu
      · rw [stored_beside hp v w]
        constructor <;> rfl
      · rw [hrst, hr] at hr'; cases hr'
    · rw [hr] at hr'; cases hr'
  | false =>
    obtain ⟨v, t', hblock, ht'⟩ := step_engine hq hr ht
    obtain ⟨w, u', hblock', hu'⟩ := step_engine (s := beside h s) hq (hrst.trans hr) hu
    rw [stored_beside hp v w] at hblock'
    obtain rfl := blockMove_beside (h := respond w h) (s := respond v s.stored) hp hblock hblock'
    exact engineSame_trans (engineSame_symm ht') (engineSame_trans (engineSame_beside _ t') hu')

end

/-- Settles O53: the two states differ in the host's side alone. -/
theorem hostAccessDoesNotDisturbEngine : Obligations.HostAccessDoesNotDisturbEngine := by
  intro s t u p rest a b hq ht hu
  exact step_beside (h := { s with inputs := { p with bus := b } :: rest })
    (s := { s with inputs := { p with bus := a } :: rest }) hq rfl ht hu

end Sys2Proof.Proofs

/-! The refresh loop (42_refresh_loop.md): the delays and how long each takes, where the timers change, the top of an iteration, RAMWR and the framebuffer reader. -/

namespace Sys2Proof.Proofs

open Sys2Proof.Machine Sys2Proof.Laws

/-! ### One cycle of a delay -/

/-- A state that has no row of the table makes its own move. -/
theorem blockMove_of_unit {run : Instr → State → Result} {s : State} (h : fetch s = .unit) :
    blockMove run s = unitMove s := by
  simp only [blockMove, h]

/-- The successor of each delay (R162, R168, R170, R201). -/
def afterDelay : Seq → State → State
  | .rstWait => afterResetDelay
  | .slpWait => goTx .donTx
  | .donWait => goTo .rlTop
  | .rlPace => goTx .rlCmdTx
  | _ => id

/-- In each wait state the block's move is one cycle of its delay. -/
theorem blockMove_waiting {s : State} (hq : s.seq.waiting = true) :
    blockMove exec s = .next (waitCycle (afterDelay s.seq) s) := by
  cases hs : s.seq <;> rw [hs] at hq <;> try (cases hq; done)
  all_goals
    rw [blockMove_of_unit (by simp only [fetch, hs])]
    simp only [unitMove, hs, afterDelay]

section
variable {f : State → State} {s : State}

theorem waitCycle_end (h : s.msLeft = 0) : waitCycle f s = f s := if_pos h

/-- The last cycle of a millisecond. -/
theorem waitCycle_millisecond (h : s.msLeft ≠ 0) (hpre : s.pre + 1 = s.par.cyclesPerMs) :
    waitCycle f s = { s with pre := 0, msLeft := s.msLeft - 1 } := by
  rw [waitCycle, if_neg h, if_pos hpre]

/-- Any other cycle of a millisecond. -/
theorem waitCycle_within (h : s.msLeft ≠ 0) (hpre : s.pre + 1 ≠ s.par.cyclesPerMs) :
    waitCycle f s = { s with pre := s.pre + 1 } := by
  rw [waitCycle, if_neg h, if_neg hpre]

end

/-- Where MS_LEFT is not 0, taking one from it does not wrap (R211). -/
theorem msLeft_pred {n : BitVec 16} (h : n ≠ 0) : (n - 1).toNat + 1 = n.toNat := by
  bv_omega

/-- The end of the delay after SWRESET begins table playback, unless the failure was noted (R162, R164). -/
theorem afterResetDelay_ok {s : State} (h : s.pendErr = false) :
    afterResetDelay s = { s with seq := .tblDecode, cursor := 0 } := by
  simp [afterResetDelay, h, goTo]

theorem afterResetDelay_failed {s : State} (h : s.pendErr = true) : afterResetDelay s = raise .transport s := if_pos h

/-- Settles O27, by the value of MS_LEFT: the successor of the state's delay, or the count. -/
theorem waitStatesCountDown : Obligations.WaitStatesCountDown := by
  intro s hq
  rw [blockMove_waiting hq]
  refine ⟨fun hend => ?ended, fun hmore => ⟨fun hpre => ⟨s.msLeft - 1, msLeft_pred hmore, ?_⟩, fun hpre => ?_⟩⟩
  case ended =>
    rw [waitCycle_end hend]
    refine ⟨fun hs hp => ?_, fun hs hp => ?_, fun hs => ?_, fun hs => ?_, fun hs => ?_⟩ <;> rw [hs, afterDelay]
    · rw [afterResetDelay_ok hp]
    · rw [afterResetDelay_failed hp, raise_bringUp (by rw [hs]; rfl)]
    all_goals rfl
  · rw [waitCycle_millisecond hmore hpre]
  · rw [waitCycle_within hmore hpre]

/-! ### How long a delay takes -/

/-- The cycles that a wait state still takes before the cycle that ends it (R211). -/
def cyclesLeft (s : State) : Nat := s.msLeft.toNat * s.par.cyclesPerMs - s.pre

/-- A delay with cycles left has a millisecond left. -/
theorem msLeft_ne_zero {s : State} {n : Nat} (h : cyclesLeft s = n + 1) : s.msLeft ≠ 0 := by
  intro h0
  simp [cyclesLeft, h0] at h

/-- A delay with no cycle left has no millisecond left, since PRE counts within one (R29). -/
theorem msLeft_eq_zero {s : State} (hpre : s.pre < s.par.cyclesPerMs) (h : cyclesLeft s = 0) : s.msLeft = 0 := by
  by_contra hne
  have hpos : s.msLeft.toNat ≠ 0 := fun h0 => hne (BitVec.eq_of_toNat_eq h0)
  have hms : s.par.cyclesPerMs ≤ s.msLeft.toNat * s.par.cyclesPerMs := Nat.le_mul_of_pos_left _ (by omega)
  rw [cyclesLeft] at h
  omega

/-- Every other cycle of a delay takes one from the cycles left, and stays in the state (R211). -/
theorem waitCycle_cyclesLeft {f : State → State} {s : State} {n : Nat} (h : cyclesLeft s = n + 1) :
    cyclesLeft (waitCycle f s) = n ∧ (waitCycle f s).seq = s.seq := by
  have hne := msLeft_ne_zero h
  by_cases hpre : s.pre + 1 = s.par.cyclesPerMs
  · rw [waitCycle_millisecond hne hpre]
    refine ⟨?_, rfl⟩
    rw [cyclesLeft, ← msLeft_pred hne, Nat.succ_mul] at h
    change (s.msLeft - 1).toNat * s.par.cyclesPerMs - 0 = n
    omega
  · rw [waitCycle_within hne hpre]
    refine ⟨?_, rfl⟩
    rw [cyclesLeft] at h
    change s.msLeft.toNat * s.par.cyclesPerMs - (s.pre + 1) = n
    omega

/-- The end of a delay leaves its wait state. -/
theorem afterDelay_leaves {s : State} (hq : s.seq.waiting = true) : (afterDelay s.seq s).seq ≠ s.seq := by
  cases hs : s.seq <;> rw [hs] at hq <;> try (cases hq; done)
  case rstWait =>
    simp only [afterDelay, afterResetDelay]
    split_ifs <;> simp [hs, Seq.bringUp, Seq.code]
  all_goals simp [afterDelay]

/-- A step uses up the inputs of its cycle (R7). -/
theorem step_inputs {s t : State} (h : step s = .next t) : t.inputs = s.inputs.tail := by
  cases hr : s.pins.rst with
  | true =>
    obtain ⟨-, -, v, ⟨-, rfl⟩ | ⟨hr', -⟩⟩ := step_cases h
    · rfl
    · rw [hr] at hr'; cases hr'
  | false =>
    obtain ⟨v, b, u, w, -, hside, hw, hu, -, -, -, rfl⟩ := step_work h hr
    have hkeep : w.inputs = b.inputs := by
      rcases hw with rfl | ⟨-, rfl⟩
      · rfl
      · obtain ⟨_, _, _, _, _, hb⟩ := startBringUp_fields b
        rw [hb]
    have huw : u.inputs = w.inputs := by rw [hu]
    rw [clockTick_inputs, huw, hkeep, hside.inputs]
    rfl

/-- In a wait state a step without block reset is a cycle of the delay, whatever the host does (R210, R330). -/
theorem step_waiting {s t : State} (hq : s.seq.waiting = true) (hr : s.pins.rst = false) (h : step s = .next t) :
    ∃ v, (waitCycle (afterDelay s.seq) (respond v s.stored)).EngineSame t := by
  have hidle : s.seq ≠ .idle := fun hi => by rw [hi] at hq; cases hq
  obtain ⟨v, b, hblock, hsame⟩ := step_engine hidle hr h
  cases (blockMove_waiting (s := respond v s.stored) hq).symm.trans hblock
  exact ⟨v, hsame⟩

/-- A delay with `n` cycles left, and inputs for them and for its last cycle, in which the environment keeps its duties
and asks for no block reset (R270, R320). -/
structure Delaying (n : Nat) (s : State) : Prop where
  inv : s.Inv
  waiting : s.seq.waiting = true
  left : cyclesLeft s = n
  enough : n + 1 ≤ s.inputs.length
  duties : ∀ p ∈ s.inputs, p.rst = false ∧ Pins.dutiful p s.par.fbBytes

/-- In a delay every cycle is one of the delay's. -/
theorem delaying_step {s : State} {n : Nat} (h : Delaying n s) :
    ∃ t v, step s = .next t ∧ t.Inv ∧ (waitCycle (afterDelay s.seq) (respond v s.stored)).EngineSame t := by
  have hpins : s.pins ∈ s.inputs := by
    have hlen := h.enough
    cases hin : s.inputs with
    | nil => simp [hin] at hlen
    | cons p rest => simp [State.pins, hin]
  obtain ⟨hr, hd⟩ := h.duties _ hpins
  obtain ⟨t, ht⟩ := dutifulStepsGoOn s h.inv hd
  obtain ⟨v, hsame⟩ := step_waiting h.waiting hr ht
  exact ⟨t, v, ht, everyStepKeepsInvariant s t h.inv ht, hsame⟩

/-- With cycles left the delay goes on in its wait state. -/
theorem delaying_goesOn {s : State} {n : Nat} (h : Delaying (n + 1) s) :
    ∃ t, step s = .next t ∧ t.seq = s.seq ∧ Delaying n t := by
  obtain ⟨t, v, ht, hinv, hsame⟩ := delaying_step h
  obtain ⟨hleft, hseq⟩ := waitCycle_cyclesLeft (f := afterDelay s.seq) (s := respond v s.stored) h.left
  have hq : t.seq = s.seq := hsame.seq.trans hseq
  have hin := step_inputs ht
  refine ⟨t, ht, hq, hinv, hq ▸ h.waiting, ?_, ?_, fun p hp => ?_⟩
  · rw [← hleft, cyclesLeft, cyclesLeft, hsame.msLeft, hsame.par, hsame.pre]
  · have hlen := h.enough
    rw [hin, List.length_tail]
    omega
  · rw [(step_par_and_fb ht).1]
    exact h.duties p (List.mem_of_mem_tail (hin ▸ hp))

/-- With no cycle left the delay's last cycle leaves the wait state. -/
theorem delaying_ends {s : State} (h : Delaying 0 s) : ∃ t, step s = .next t ∧ t.seq ≠ s.seq := by
  obtain ⟨t, v, ht, -, hsame⟩ := delaying_step h
  refine ⟨t, ht, ?_⟩
  rw [hsame.seq, waitCycle_end (s := respond v s.stored) (msLeft_eq_zero h.inv.prescaler h.left)]
  exact afterDelay_leaves (s := respond v s.stored) h.waiting

/-- A run of one step more goes on from the step's state. -/
theorem run_succ_of_step {M : Host.Core} {k : Nat} {s u : M.State} (h : M.step s = .next u) :
    M.run (k + 1) s = M.run k u := by
  rw [Host.Core.run, h]

/-- A delay stays in its wait state for the cycles it has left. -/
theorem run_delaying_stays {k n : Nat} {s : State} (h : Delaying n s) (hk : k ≤ n) :
    ∃ t, core.run k s = .next t ∧ t.seq = s.seq := by
  induction k generalizing n s with
  | zero => exact ⟨s, rfl, rfl⟩
  | succ k ih =>
    obtain ⟨n, rfl⟩ := Nat.exists_eq_add_of_lt hk
    obtain ⟨u, hstep, hseq, hu⟩ := delaying_goesOn h
    obtain ⟨t, hrun, ht⟩ := ih hu (Nat.le_add_right k n)
    exact ⟨t, (run_succ_of_step (M := core) hstep).trans hrun, ht.trans hseq⟩

/-- A delay has left its wait state one cycle later. -/
theorem run_delaying_ends {n : Nat} {s : State} (h : Delaying n s) :
    ∃ t, core.run (n + 1) s = .next t ∧ t.seq ≠ s.seq := by
  induction n generalizing s with
  | zero =>
    obtain ⟨t, hstep, ht⟩ := delaying_ends h
    exact ⟨t, run_succ_of_step (M := core) hstep, ht⟩
  | succ n ih =>
    obtain ⟨u, hstep, hseq, hu⟩ := delaying_goesOn h
    obtain ⟨t, hrun, ht⟩ := ih hu
    exact ⟨t, (run_succ_of_step (M := core) hstep).trans hrun, hseq ▸ ht⟩

/-- Settles O28: at its start a delay of N ms has N * CYCLES_PER_MS cycles left. -/
theorem waitLastsExactly : Obligations.WaitLastsExactly := by
  intro s h hq hpre hlen hd
  have hstart : Delaying (s.msLeft.toNat * s.par.cyclesPerMs) s :=
    ⟨h, hq, by rw [cyclesLeft, hpre, Nat.sub_zero], hlen, hd⟩
  exact ⟨fun _ => run_delaying_stays hstart, run_delaying_ends hstart⟩

/-! ### Where the timers change -/

/-- The timers are the same, or a delay has been entered, which loads them (R210, R213). -/
def TimersKept (s t : State) : Prop := (t.msLeft = s.msLeft ∧ t.pre = s.pre) ∨ t.seq.waiting = true

theorem timersKept_afterOk {q : Seq} {m : Mode} (hm : txMode q = some m) (s : State) : TimersKept s (afterOk q s) := by
  cases q <;> try (cases hm; done)
  case rstTx | slpTx | donTx => exact .inr rfl
  case tblOpcTx => simp only [afterOk, afterOpcode]; split_ifs <;> exact .inl ⟨rfl, rfl⟩
  all_goals exact .inl ⟨rfl, rfl⟩

theorem timersKept_afterErr (q : Seq) (s : State) : TimersKept s (afterErr q s) := by
  cases q
  case rstTx => exact .inr rfl
  all_goals exact .inl ⟨rfl, rfl⟩

/-- A cycle of a transaction keeps the timers, but where its response leads to a delay (R161, R167, R169). -/
theorem timersKept_transmit {s t : State} {m : Mode} (hm : txMode s.seq = some m)
    (h : sendCycle m s.txLen s.txByte (afterOk s.seq) (afterErr s.seq) s = .next t) : TimersKept s t := by
  rcases sendCycle_cases h with ⟨-, rfl⟩ | ⟨-, -, rfl⟩ | ⟨_, -, -, -, rfl⟩ | ⟨_, -, -, -, rfl⟩ | ⟨-, -, rfl⟩ |
    ⟨-, -, -, rfl⟩ | ⟨-, -, -, rfl⟩
  · exact .inl ⟨rfl, rfl⟩
  · exact .inl ⟨rfl, rfl⟩
  · exact .inl ⟨rfl, rfl⟩
  · exact .inl ⟨rfl, rfl⟩
  · exact .inl ⟨rfl, rfl⟩
  · exact timersKept_afterOk hm (complete .ok s)
  · exact timersKept_afterErr s.seq (complete .err s)

/-- Outside the wait states the block's move keeps the timers or enters a delay. -/
theorem timersKept_blockMove {s t : State} (hq : s.seq.waiting = false) (h : blockMove exec s = .next t) :
    TimersKept s t := by
  rcases blockMove_cases h with ⟨m, hm, hsend⟩ | ⟨hwait, -⟩ | ⟨-, i, hi, hform⟩ | ⟨-, rfl⟩ | ⟨-, rfl⟩
  · exact timersKept_transmit hm hsend
  · exact absurd hwait (Bool.eq_false_iff.mp hq)
  · rcases hform with rfl | ⟨_, rfl⟩ | ⟨_, _, rfl⟩ <;> cases hi <;> exact .inl ⟨rfl, rfl⟩
  · unfold loopTop
    split_ifs
    · exact .inl ⟨rfl, rfl⟩
    · exact .inr rfl
  · exact .inl ⟨rfl, rfl⟩

/-- Settles O30: the block's move keeps the timers or enters a delay, and the host's write reaches neither the timers
nor a wait state. -/
theorem timersChangeOnlyInWaits : Obligations.TimersChangeOnlyInWaits := by
  intro s t hr hq h
  obtain ⟨v, b, u, w, hblock, -, hw, hu, -, -, -, rfl⟩ := step_work h hr
  have hmove : TimersKept s b := timersKept_blockMove (s := respond v s.stored) hq hblock
  have huw : u.msLeft = w.msLeft ∧ u.pre = w.pre ∧ u.seq = w.seq := by rw [hu]; exact ⟨rfl, rfl, rfl⟩
  obtain ⟨hms, hpre, hseq⟩ := huw
  rw [clockTick_msLeft, clockTick_pre, clockTick_seq, hms, hpre, hseq]
  rcases hw with rfl | ⟨hidle, rfl⟩
  · exact hmove
  · obtain ⟨_, _, _, _, _, hb⟩ := startBringUp_fields b
    rw [hb]
    exact .inl (hmove.resolve_right (by rw [hidle]; decide))

/-! ### The iteration -/

/-- Settles O29: the two branches of `loopTop`. -/
theorem loopTopChecksCancellation : Obligations.LoopTopChecksCancellation := by
  intro s hq
  have hmove : blockMove exec s = .next (loopTop s) := by
    rw [blockMove_of_unit (by simp only [fetch, hq])]
    simp only [unitMove, hq]
  rw [hmove, loopTop]
  refine ⟨fun hc => ?_, fun hc => ?_⟩
  · rw [if_pos hc, goTo]
  · rw [if_neg (by simp [hc]), goWait]

/-- Settles O18: S_RL_CMD_TX is a state of the loop, so its err ends in S_RL_FAILED. -/
theorem ramwrCompletes : Obligations.RamwrCompletes := by
  intro s h hq hx hv
  have hbyte : s.txByte 0 = some s.par.opcRamwr := by simp [State.txByte, State.txLen, hq, txMode]
  obtain ⟨hok, herr⟩ := sendCommand_completes h (by rw [hq]; rfl) hx hv hbyte (goTx .rlPixTx) (raise .transport)
  exact ⟨hok, fun he => (herr he).trans (congrArg _ (raise_loop (by rw [hq]; rfl)))⟩

/-- The framebuffer reader runs one DATA transaction of FB_BYTES bytes (R204). -/
theorem blockMove_pixels {s : State} (hq : s.seq = .rlPixTx) :
    blockMove exec s = sendCycle .data s.par.fbBytes s.txByte (goTo .rlTop) (raise .transport) s := by
  rw [blockMove_transmits (m := .data) (by rw [hq]; rfl) (by simp [hq]), State.txLen, hq]
  rfl

/-- Its bytes are those of the Pixel Buffer (R152, R204). -/
theorem txByte_pixels {s : State} (hq : s.seq = .rlPixTx) {i : Nat} (hi : i < s.txLen) :
    s.txByte i = some (s.fbRead i) := by
  rw [State.txByte, if_pos hi, hq]

/-- Settles O31: the invariant puts TX_IDX below FB_BYTES in the stream, and in the wait all the bytes have been handed
over; S_RL_PIX_TX is a state of the loop, so its err ends in S_RL_FAILED. -/
theorem pixelReaderSendsTheBuffer : Obligations.PixelReaderSendsTheBuffer := by
  intro s h hq
  have hm : txMode s.seq = some .data := by rw [hq]; rfl
  have hlen : s.txLen = s.par.fbBytes := by rw [State.txLen, hq]
  have hindex (hx : s.txs = .stream) : s.txIdx < s.txLen := by
    obtain ⟨-, hi, -⟩ := h.tx.stream _ hm hx
    exact hi
  rw [blockMove_pixels hq]
  refine ⟨fun hx hr hmore => ⟨?next, ?address⟩, fun hx hr hlast => ?last, fun hx hv he => ?ok, fun hx hv he => ?err⟩
  case next => exact sendCycle_nextByte hx (txByte_pixels hq (hindex hx)) hr hmore
  case address => exact fbAddr_toNat hq hx (hlen ▸ hindex hx)
  case last => exact sendCycle_lastByte hx (txByte_pixels hq (hindex hx)) hr hlast
  all_goals obtain ⟨hdc, hsent⟩ := h.tx.wait _ hm hx
  case ok =>
    refine ⟨hsent.trans hlen, ?_⟩
    rw [sendCycle_ok hx hv he, complete, hdc]
    rfl
  case err => rw [sendCycle_err hx hv he, raise_loop (by rw [complete_seq, hq]; rfl), complete, hdc]

end Sys2Proof.Proofs

/-! The converter and the pseudo-palette (43_color_converter.md): the lanes of a converted word and what they say of its channels, the entry that PALWR writes and READ_PAL answers, and that no step lets the palette reach the transport. -/

namespace Sys2Proof.Proofs

open Sys2Proof.Machine Sys2Proof.Laws

/-! ### The lanes of a converted word -/

/-- Masking a channel keeps its low six bits (R240). -/
theorem getLsbD_mask (x : Word) (i : Nat) : (x &&& 0x3F).getLsbD i = (decide (i < 6) && x.getLsbD i) := by
  have hmask : (0x3F : Word).getLsbD i = decide (i < 6) := by
    by_cases hi : i < 32
    · exact (by decide : ∀ i < 32, (0x3F : Word).getLsbD i = decide (i < 6)) i hi
    · rw [BitVec.getLsbD_of_ge _ _ (by omega), decide_eq_false (by omega)]
  rw [BitVec.getLsbD_and, hmask, Bool.and_comm]

/-- A bit of a converted word is one of the three channels', by the lane that it lies in (R240). -/
theorem getLsbD_convert (r g b : Word) {i : Nat} (hi : i < 32) :
    (convert r g b).getLsbD i =
      ((decide (18 ≤ i ∧ i < 24) && r.getLsbD (i - 18)) || (decide (10 ≤ i ∧ i < 16) && g.getLsbD (i - 10)) ||
        (decide (2 ≤ i ∧ i < 8) && b.getLsbD (i - 2))) := by
  have lane (x : Word) (k : Nat) :
      ((x &&& 0x3F) <<< k).getLsbD i = (decide (k ≤ i ∧ i < k + 6) && x.getLsbD (i - k)) := by
    rw [BitVec.getLsbD_shiftLeft, getLsbD_mask, decide_eq_true hi, Bool.true_and, ← Bool.and_assoc, ← decide_not,
      ← Bool.decide_and]
    congr 2
    rw [eq_iff_iff]
    omega
  rw [convert, BitVec.getLsbD_or, BitVec.getLsbD_or, lane, lane, lane]

/-- Each channel's low six bits stand in its lane (R240). -/
theorem convert_lanes (r g b : Word) :
    (convert r g b).extractLsb' 18 6 = r.extractLsb' 0 6 ∧ (convert r g b).extractLsb' 10 6 = g.extractLsb' 0 6 ∧
      (convert r g b).extractLsb' 2 6 = b.extractLsb' 0 6 := by
  refine ⟨?red, ?green, ?blue⟩
  all_goals
    refine BitVec.eq_of_getLsbD_eq fun i hi => ?_
    rw [BitVec.getLsbD_extractLsb', BitVec.getLsbD_extractLsb', getLsbD_convert r g b (by omega)]
  case red =>
    have hlane : 18 + i < 24 ∧ ¬ 18 + i < 16 ∧ ¬ 18 + i < 8 := by omega
    simp [hi, hlane]
  case green =>
    have hlane : ¬ 18 ≤ 10 + i ∧ 10 + i < 16 ∧ ¬ 10 + i < 8 := by omega
    simp [hi, hlane]
  case blue =>
    have hlane : ¬ 18 ≤ 2 + i ∧ ¬ 10 ≤ 2 + i ∧ 2 + i < 8 := by omega
    simp [hi, hlane]

/-- Settles O41: the lanes are the channels', and no bit lies outside them; that the word is kept in `convOut` is the
model's choice (log 17). -/
theorem convertPacksThreeLanes : Obligations.ConvertPacksThreeLanes := by
  intro s r g b
  obtain ⟨hred, hgreen, hblue⟩ := convert_lanes r g b
  exact ⟨convert r g b, rfl, hred, hgreen, hblue, laneWord_convert r g b⟩

/-- Below 0x40 a channel is its low six bits. -/
theorem eq_of_low_six_eq {x y : Word} (hx : x.toNat < 64) (hy : y.toNat < 64)
    (h : x.extractLsb' 0 6 = y.extractLsb' 0 6) : x = y := by
  have hlow := congrArg BitVec.toNat h
  simp only [BitVec.extractLsb'_toNat, Nat.shiftRight_zero] at hlow
  apply BitVec.eq_of_toNat_eq
  omega

/-- Settles O42: masking twice is masking once, and each channel can be read back from its lane. -/
theorem convertIsInjectiveOnSixBits : Obligations.ConvertIsInjectiveOnSixBits := by
  refine ⟨fun r g b => ?_, fun r g b r' g' b' hr hg hb hr' hg' hb' h => ?_⟩
  · have mask_twice (x : Word) : x &&& 0x3F &&& 0x3F = x &&& 0x3F := by rw [BitVec.and_assoc, BitVec.and_self]
    simp only [convert, mask_twice]
  · obtain ⟨hred, hgreen, hblue⟩ := convert_lanes r g b
    obtain ⟨hred', hgreen', hblue'⟩ := convert_lanes r' g' b'
    rw [h] at hred hgreen hblue
    exact ⟨eq_of_low_six_eq hr hr' (hred.symm.trans hred'), eq_of_low_six_eq hg hg' (hgreen.symm.trans hgreen'),
      eq_of_low_six_eq hb hb' (hblue.symm.trans hblue')⟩

/-! ### PALWR and READ_PAL -/

/-- IDX is the uppermost byte of the word (R38). -/
theorem palwrIdx_toNat (w : Word) : (palwrIdx w).toNat = w.toNat / 2 ^ 24 := by
  have hw := w.isLt
  rw [palwrIdx, BitVec.extractLsb'_toNat, Nat.shiftRight_eq_div_pow]
  omega

/-- A byte field, zero-extended, is the shifted word's low byte (R38, R241). -/
theorem byteField_eq (w : Word) (k : Nat) : (w.extractLsb' k 8).setWidth 32 = (w >>> k) &&& 0xFF := by
  apply BitVec.eq_of_toNat_eq
  have hbyte : (0xFF : Word).toNat = 2 ^ 8 - 1 := rfl
  rw [BitVec.toNat_setWidth, BitVec.extractLsb'_toNat, BitVec.toNat_and, BitVec.toNat_ushiftRight, hbyte,
    Nat.and_two_pow_sub_one_eq_mod]
  omega

/-- The colour of a PALWR word is the conversion of its three byte fields (R241). -/
theorem palwrColor_eq (w : Word) :
    palwrColor w = convert ((w >>> 16) &&& 0xFF) ((w >>> 8) &&& 0xFF) (w &&& 0xFF) := by
  rw [palwrColor, palwrRed, palwrGreen, palwrBlue, byteField_eq, byteField_eq, byteField_eq, BitVec.ushiftRight_zero]

/-- PALWR of an entry that the palette has (R241). -/
theorem exec_palwr_inside {s : State} {w : Word} (h : w.toNat / 2 ^ 24 < s.par.palEntries) :
    exec (.palwr w) s =
      .next { s with pal := s.pal.set (w.toNat / 2 ^ 24) (palwrColor w), convOut := palwrColor w } := by
  rw [← palwrIdx_toNat] at h ⊢
  exact if_pos h

/-- PALWR of an index of `PAL_ENTRIES` or more is ignored (R241). -/
theorem exec_palwr_outside {s : State} {w : Word} (h : s.par.palEntries ≤ w.toNat / 2 ^ 24) :
    exec (.palwr w) s = .next s := by
  rw [← palwrIdx_toNat] at h
  exact if_neg (Nat.not_lt.mpr h)

/-- Settles O39, by IDX; the invariant gives the palette `PAL_ENTRIES` entries. That the converter's output may change,
and stays where IDX is out of range, is the model's choice (log 17). -/
theorem palwrWritesOneEntry : Obligations.PalwrWritesOneEntry := by
  refine fun s w => ⟨decode_busCode .write rfl w, ?_⟩
  by_cases hidx : w.toNat / 2 ^ 24 < s.par.palEntries
  · refine ⟨_, _, exec_palwr_inside hidx, fun hout => absurd hidx (Nat.not_lt.mpr hout), List.length_set,
      fun i hi => List.getElem?_set_ne (Ne.symm hi), fun hinv _ => ?_⟩
    rw [List.getElem?_set_self (hinv.paletteSize ▸ hidx), palwrColor_eq]
  · exact ⟨s.pal, s.convOut, exec_palwr_outside (Nat.not_lt.mp hidx), fun _ => ⟨rfl, rfl⟩, rfl, fun _ _ => rfl,
      fun _ hin => absurd hin hidx⟩

/-- Settles O40: the answer is `palEntry`; that it is 0 where no entry stands is the model's choice (log 23). -/
theorem paletteReadReturnsEntry : Obligations.PaletteReadReturnsEntry := by
  intro s d k
  have hexec : exec (.readPal k) s = .next { s with rdata := s.palEntry k } := rfl
  refine ⟨?_, fun w hw => ?_, fun hout => ?_⟩
  · exact (decode_busCode .read (aligned_palOffset k) d).trans (congrArg _ (decodeAccess_readPal k d))
  · rw [hexec, palEntry_of_getElem? hw]
  · rw [hexec, palEntry_outside hout]

/-! ### What the palette reaches -/

/-- Every host access is a host operation (R99). -/
theorem ofSequencer_hostInstr {s : State} {i : Instr} (h : hostInstr s = some i) : i.ofSequencer = false := by
  rcases hostInstr_cases s with ⟨-, hi⟩ | ⟨-, -, hi⟩ | ⟨-, -, hi⟩ <;> rw [h] at hi <;> cases hi
  · unfold decodeAccess decodeCtrl
    cases s.pins.bus.dir <;> split_ifs <;> rfl
  · rfl

/-- The two states are the same but for the palette and for what it is observed by: `reg_rdata` and the converter's
output. -/
def SameButPalette (s u : State) : Prop :=
  ∃ pal rdata conv, u = { s with pal := pal, rdata := rdata, convOut := conv }

/-- One engine beside two palettes, under the same inputs. -/
theorem sameButPalette_beside {h s : State} (hi : h.inputs = s.inputs) (hc : h.cycle = s.cycle) :
    SameButPalette s (beside h s) :=
  ⟨h.pal, h.rdata, h.convOut, by rw [beside, hi, hc]⟩

section
variable {s u s' u' : State} (h : SameButPalette s u)
include h

theorem sameButPalette_eq_beside : u = beside u s := by
  obtain ⟨_, _, _, rfl⟩ := h
  rfl

theorem sameButPalette_pins : u.pins = s.pins := by
  obtain ⟨_, _, _, rfl⟩ := h
  rfl

/-- Neither the engine nor the host's registers tell the two states apart. -/
theorem sameButPalette_engineSame : s.EngineSame u ∧ u.cancelReq = s.cancelReq ∧ u.pacingMs = s.pacingMs := by
  obtain ⟨_, _, _, rfl⟩ := h
  exact ⟨by constructor <;> rfl, rfl, rfl⟩

/-- The writer's stores are the same in both, and the host's read changes `reg_rdata` alone, whatever it answers. -/
theorem sameButPalette_respond_stored (v w : Word) : SameButPalette (respond v s.stored) (respond w u.stored) := by
  obtain ⟨pal, _, conv, rfl⟩ := h
  exact ⟨pal, w, conv, rfl⟩

theorem sameButPalette_clockTick : SameButPalette (clockTick s) (clockTick u) := by
  obtain ⟨pal, rdata, conv, rfl⟩ := h
  exact ⟨pal, rdata, conv, rfl⟩

theorem sameButPalette_blockReset : SameButPalette (blockReset s) (blockReset u) := by
  obtain ⟨_, rdata, _, rfl⟩ := h
  exact ⟨_, rdata, _, rfl⟩

/-- START's own effect does not look at the palette (R261). -/
theorem sameButPalette_startBringUp : SameButPalette (startBringUp s) (startBringUp u) := by
  obtain ⟨hengine, -, -⟩ := sameButPalette_engineSame h
  have hpins := sameButPalette_pins h
  by_cases hq : s.seq = .idle
  · have hq' := hengine.seq.trans hq
    cases hr : s.pins.resOk with
    | true =>
      rw [startBringUp_ok hq hr, startBringUp_ok hq' (hpins ▸ hr)]
      obtain ⟨pal, rdata, conv, rfl⟩ := h
      exact ⟨pal, rdata, conv, rfl⟩
    | false =>
      rw [startBringUp_err hq hr, startBringUp_err hq' (hpins ▸ hr)]
      obtain ⟨pal, rdata, conv, rfl⟩ := h
      exact ⟨pal, rdata, conv, rfl⟩
  · rw [startBringUp_ignored hq, startBringUp_ignored (hengine.seq ▸ hq)]
    exact h

/-- PALWR looks at the palette's size alone, which is a parameter (R241). -/
theorem sameButPalette_palwr {w : Word} (hs : exec (.palwr w) s = .next s') (hu : exec (.palwr w) u = .next u') :
    SameButPalette s' u' := by
  have hpar : u.par = s.par := (sameButPalette_engineSame h).1.par
  by_cases hidx : w.toNat / 2 ^ 24 < s.par.palEntries
  · rw [exec_palwr_inside hidx] at hs
    rw [exec_palwr_inside (hpar ▸ hidx)] at hu
    obtain ⟨_, _, _, rfl⟩ := h
    cases hs
    cases hu
    exact ⟨_, _, _, rfl⟩
  · rw [exec_palwr_outside (Nat.not_lt.mp hidx)] at hs
    rw [exec_palwr_outside (hpar ▸ Nat.not_lt.mp hidx)] at hu
    cases hs
    cases hu
    exact h

/-- A host operation looks at no palette entry but to answer it (R242). -/
theorem sameButPalette_exec {i : Instr} (hi : i.ofSequencer = false) (hs : exec i s = .next s')
    (hu : exec i u = .next u') : SameButPalette s' u' := by
  cases i <;> try (cases hi; done)
  case start w =>
    obtain ⟨pal, rdata, conv, hstart⟩ := sameButPalette_startBringUp h
    obtain ⟨-, hcancel, -⟩ := sameButPalette_engineSame h
    rw [exec_start] at hs hu
    cases hs
    cases hu
    exact ⟨pal, rdata, conv, by rw [hstart, hcancel]⟩
  case palwr => exact sameButPalette_palwr h hs hu
  case refusedAccess => cases hs
  case reservedHi dir _ _ | reservedLo dir _ _ =>
    obtain ⟨_, _, _, rfl⟩ := h
    cases dir <;> cases hs <;> cases hu <;> exact ⟨_, _, _, rfl⟩
  all_goals
    obtain ⟨_, _, _, rfl⟩ := h
    cases hs
    cases hu
    exact ⟨_, _, _, rfl⟩

/-- The host's write at the end of the cycle is the same operation in both (R79). -/
theorem sameButPalette_hostWriteMove (hs : hostWriteMove exec s = .next s') (hu : hostWriteMove exec u = .next u') :
    SameButPalette s' u' := by
  have hpins := sameButPalette_pins h
  cases hw : busWrite s.pins.bus with
  | false =>
    rw [hostWriteMove_of_not_write hw] at hs
    rw [hostWriteMove_of_not_write (hpins ▸ hw)] at hu
    cases hs
    cases hu
    exact h
  | true =>
    cases hi : hostInstr s with
    | none => rw [busWrite_of_hostInstr_none hi] at hw; cases hw
    | some i =>
      rw [hostWriteMove_of_write hi hw] at hs
      rw [hostWriteMove_of_write ((hostInstr_congr hpins).trans hi) (hpins ▸ hw)] at hu
      exact sameButPalette_exec h (ofSequencer_hostInstr hi) hs hu

/-- The block's move looks at no palette entry (R243). -/
theorem sameButPalette_blockMove (hs : blockMove exec s = .next s') (hu : blockMove exec u = .next u') :
    SameButPalette s' u' := by
  have hpins : SameButBus u.pins s.pins := by rw [sameButPalette_pins h]; rfl
  have hinputs : u.inputs = s.inputs ∧ u.cycle = s.cycle := by
    obtain ⟨_, _, _, rfl⟩ := h
    exact ⟨rfl, rfl⟩
  have hside := blockMove_hostSide hs
  rw [sameButPalette_eq_beside h] at hu
  obtain rfl := blockMove_beside hpins hs hu
  exact sameButPalette_beside (hinputs.1.trans hside.inputs.symm) (hinputs.2.trans hside.cycle.symm)

/-- A step from each is block reset in both, or the block's move and the host's write in both. -/
theorem sameButPalette_step (hs : step s = .next s') (hu : step u = .next u') : SameButPalette s' u' := by
  have hrst : u.pins.rst = s.pins.rst := by rw [sameButPalette_pins h]
  obtain ⟨-, -, v, hs⟩ := step_cases hs
  obtain ⟨-, -, w, hu⟩ := step_cases hu
  have hopen := sameButPalette_respond_stored h v w
  rcases hs with ⟨hr, rfl⟩ | ⟨hr, _, _, hblock, hwrite, rfl⟩ <;>
    rcases hu with ⟨hr', rfl⟩ | ⟨hr', _, _, hblock', hwrite', rfl⟩ <;> try (simp [hrst, hr] at hr'; done)
  · exact sameButPalette_clockTick (sameButPalette_blockReset hopen)
  · exact sameButPalette_clockTick
      (sameButPalette_hostWriteMove (sameButPalette_blockMove hopen hblock hblock') hwrite hwrite')

end

/-- Runs from two such states end in two such states, by induction on the number of steps. -/
theorem sameButPalette_run {k : Nat} {s u s' u' : State} (h : SameButPalette s u) (hs : core.run k s = .next s')
    (hu : core.run k u = .next u') : SameButPalette s' u' := by
  induction k generalizing s u with
  | zero =>
    cases hs
    cases hu
    exact h
  | succ k ih =>
    obtain ⟨_, hstep, hrun⟩ := run_succ_eq_next hs
    obtain ⟨_, hstep', hrun'⟩ := run_succ_eq_next hu
    exact ih (sameButPalette_step h hstep hstep') hrun hrun'

/-- Settles O54: the two runs end in states that are the same but for the palette and what it is observed by. -/
theorem paletteDoesNotReachTheTransport : Obligations.PaletteDoesNotReachTheTransport := by
  intro k s t u pal ht hu
  have hsame : SameButPalette s { s with pal := pal } := ⟨pal, s.rdata, s.convOut, rfl⟩
  exact sameButPalette_engineSame (sameButPalette_run hsame ht hu)

end Sys2Proof.Proofs

/-! The host interface (44_host_interface.md): the operation that an access of each register decodes to, and what START, STOP, STATUS, PACING and the accesses without an effect do. -/

namespace Sys2Proof.Proofs

open Sys2Proof.Machine Sys2Proof.Laws

/-! ### The fields of STATUS and PACING -/

/-- A bit of the status word is PHASE's, ERR's or CANCEL_REQ, by the field that it lies in (R36). -/
theorem getLsbD_statusWord (s : State) {i : Nat} (hi : i < 32) :
    s.statusWord.getLsbD i =
      (decide (i = 8) && s.cancelReq || decide (4 ≤ i) && s.err.code.getLsbD (i - 4) || s.seq.phase.getLsbD i) := by
  have hcancel : (((if s.cancelReq then 1 else 0) <<< 8 : Nat) : Word).getLsbD i = (decide (i = 8) && s.cancelReq) := by
    cases s.cancelReq with
    | false => simp
    | true => exact (by decide : ∀ i < 32, ((1 <<< 8 : Nat) : Word).getLsbD i = (decide (i = 8) && true)) i hi
  have herr : ((s.err.code.setWidth 32) <<< 4).getLsbD i = (decide (4 ≤ i) && s.err.code.getLsbD (i - 4)) := by
    rw [BitVec.getLsbD_shiftLeft, BitVec.getLsbD_setWidth, decide_eq_true hi, decide_eq_true (by omega : i - 4 < 32),
      Bool.true_and, Bool.true_and, ← decide_not, decide_eq_decide.mpr Nat.not_lt]
  rw [State.statusWord, BitVec.getLsbD_or, BitVec.getLsbD_or, hcancel, herr, BitVec.getLsbD_setWidth,
    decide_eq_true hi, Bool.true_and]

/-- Bits 3:0 of the status word are PHASE (R36). -/
theorem statusWord_phase (s : State) : s.statusWord.extractLsb' 0 4 = s.seq.phase := by
  refine BitVec.eq_of_getLsbD_eq fun i hi => ?_
  have hfield : ¬ i = 8 ∧ ¬ 4 ≤ i := by omega
  rw [BitVec.getLsbD_extractLsb', getLsbD_statusWord s (by omega)]
  simp [hi, hfield]

/-- Bits 7:4 of the status word are ERR (R36). -/
theorem statusWord_err (s : State) : s.statusWord.extractLsb' 4 4 = s.err.code := by
  refine BitVec.eq_of_getLsbD_eq fun i hi => ?_
  have hfield : ¬ 4 + i = 8 := by omega
  rw [BitVec.getLsbD_extractLsb', getLsbD_statusWord s (by omega), BitVec.getLsbD_of_ge s.seq.phase (4 + i) (by omega)]
  simp [hi, hfield]

/-- Bit 8 of the status word is CANCEL_REQ (R36). -/
theorem statusWord_cancelReq (s : State) : s.statusWord.getLsbD 8 = s.cancelReq := by
  rw [getLsbD_statusWord s (by decide)]
  simp

/-- Bits 31:9 of the status word are zeros (R36). -/
theorem statusWord_upper (s : State) : s.statusWord.extractLsb' 9 23 = 0 := by
  refine BitVec.eq_of_getLsbD_eq fun i hi => ?_
  have hfield : ¬ 9 + i = 8 := by omega
  rw [BitVec.getLsbD_extractLsb', getLsbD_statusWord s (by omega), BitVec.getLsbD_of_ge s.seq.phase (9 + i) (by omega),
    BitVec.getLsbD_of_ge s.err.code (9 + i - 4) (by omega)]
  simp [hfield]

/-- Settles O37: the answer is the status word, and each field is read back from its bits. -/
theorem statusReadReturnsItsFields : Obligations.StatusReadReturnsItsFields := fun s d =>
  ⟨decode_busCode .read rfl d, s.statusWord, rfl, statusWord_phase s, statusWord_err s, statusWord_cancelReq s,
    statusWord_upper s⟩

/-- The MS field is the word's low 16 bits (R37, R267). -/
theorem pacingField_toNat (w : Word) : (pacingField w).toNat = w.toNat % 65536 := by
  rw [pacingField, BitVec.extractLsb'_toNat, Nat.shiftRight_zero]

/-- The PACING word is PACING_MS, zero-extended (R268). -/
theorem pacingWord_toNat (s : State) : s.pacingWord.toNat = s.pacingMs.toNat :=
  BitVec.toNat_setWidth_of_le (by decide)

/-- Settles O38: the value kept is the MS field, the answer the PACING word. -/
theorem pacingKeepsSixteenBits : Obligations.PacingKeepsSixteenBits := fun s w =>
  ⟨decode_busCode .write rfl w, decode_busCode .read rfl w, ⟨pacingField w, rfl, pacingField_toNat w⟩,
    s.pacingWord, rfl, pacingWord_toNat s⟩

/-! ### CTRL -/

/-- Settles O32, by SEQ and `res_ok`; that one START carries bit 1 too is the model's reading (log 14). -/
theorem startBeginsBringUpOnlyInIdle : Obligations.StartBeginsBringUpOnlyInIdle := by
  intro s w hstart
  have hname : decodeCtrl w = .start w := if_pos hstart
  refine ⟨hname ▸ decode_writeCtrl w, fun hidle hres => ?_, fun hidle hres => ?_, fun hbusy => ?_⟩
  · rw [exec_start, startBringUp_ok hidle hres]; rfl
  · rw [exec_start, startBringUp_err hidle hres]
  · rw [exec_start, startBringUp_ignored hbusy]

/-- Settles O33, by bit 1 of the word. -/
theorem ctrlWritesWithoutStart : Obligations.CtrlWritesWithoutStart := by
  intro s w hstart
  refine ⟨fun hstop => ⟨?_, rfl⟩, fun hstop => ⟨?_, rfl⟩⟩
  · have hname : decodeCtrl w = .stop w := by simp only [decodeCtrl, hstart, hstop]; rfl
    exact hname ▸ decode_writeCtrl w
  · have hname : decodeCtrl w = .ctrlNop w := by simp only [decodeCtrl, hstart, hstop]; rfl
    exact hname ▸ decode_writeCtrl w

/-! ### Accesses without an effect -/

/-- Settles O34: both answers are `respond 0`. -/
theorem writeOnlyRegistersReadZero : Obligations.WriteOnlyRegistersReadZero := fun _ w =>
  ⟨decode_busCode .read rfl w, rfl, decode_busCode .read rfl w, rfl⟩

/-- Settles O35: the sixteen palette offsets are those of `palOffset`. -/
theorem readOnlyRegistersIgnoreWrites : Obligations.ReadOnlyRegistersIgnoreWrites := by
  intro s w k
  have hpal : decode (busCode .write (palOffset k) w) = .ok (.writePal k w) :=
    decodeAccess_writePal k w ▸ decode_busCode .write (aligned_palOffset k) w
  exact ⟨decode_busCode .write rfl w, rfl, hpal, rfl⟩

/-- Settles O36, by the range that the offset lies in, for both directions at once. -/
theorem reservedAccessesReadZero : Obligations.ReservedAccessesReadZero := by
  intro s w off hword
  have haligned : aligned off = true := by simpa [aligned] using hword
  refine ⟨fun hmin hmax => ?lower, fun hmin => ?upper⟩
  case lower =>
    have hrange : inReservedLo off = true := by simp [inReservedLo]; omega
    have hdecode (dir : Dir) : decode (busCode dir off w) = .ok (.reservedLo dir off w) :=
      decodeAccess_reservedLo dir w hrange ▸ decode_busCode dir haligned w
    exact ⟨hdecode .read, hdecode .write, rfl, rfl⟩
  case upper =>
    have hrange : inReservedHi off = true := by simpa [inReservedHi] using hmin
    have hdecode (dir : Dir) : decode (busCode dir off w) = .ok (.reservedHi dir off w) :=
      decodeAccess_reservedHi dir w hrange ▸ decode_busCode dir haligned w
    exact ⟨hdecode .read, hdecode .write, rfl, rfl⟩

end Sys2Proof.Proofs

/-! Terminal states (60_exceptions.md): what a step without block reset keeps there, and what the block sends. -/

namespace Sys2Proof.Proofs

open Sys2Proof.Machine Sys2Proof.Laws

/-- A terminal state transmits nothing (R152, R293). -/
theorem txMode_of_terminal {q : Seq} (hq : q.terminal = true) : txMode q = none := by
  cases q
  case stopped | initFailed | rlFailed => rfl
  all_goals cases hq

/-- In a terminal state a step without block reset leaves the engine as it is, but for the writer's stores of the
cycle (R293, R297). -/
theorem step_terminal {s t : State} (hq : s.seq.terminal = true) (hr : s.pins.rst = false) (h : step s = .next t) :
    s.stored.EngineSame t := by
  have hidle : s.seq ≠ .idle := fun hi => by rw [hi] at hq; cases hq
  obtain ⟨v, b, hblock, hsame⟩ := step_engine hidle hr h
  obtain rfl := blockMove_terminal (s := respond v s.stored) hq hblock
  exact engineSame_trans (by constructor <;> rfl) hsame

/-- Settles O49: the engine stays, so the state after the step is terminal too, and the outputs of a state that
transmits nothing are idle. -/
theorem terminalStatesHold : Obligations.TerminalStatesHold := by
  intro s t hq hr h
  have hsame := step_terminal hq hr h
  have hq' : t.seq.terminal = true := hsame.seq ▸ hq
  have hm := txMode_of_terminal hq'
  have hpix : t.seq ≠ .rlPixTx := fun hp => by rw [hp] at hm; cases hm
  obtain ⟨hport, haddr, -⟩ := outputsIdleOutsideTheStream t
  exact ⟨hsame.seq, hsame.err, hsame.dc, hsame.log, hsame.sent, hport (.inr hm), haddr (.inr hpix)⟩

end Sys2Proof.Proofs

/-! Reset and hazards (70_reset_and_hazards.md): the values that block reset leaves, the invariant there, what a cycle with `rst` keeps, and how long a transaction takes with an ideal transport. -/

namespace Sys2Proof.Proofs

open Sys2Proof.Machine Sys2Proof.Laws

/-! ### Block reset -/

/-- With `rst` the move of the block and the host's write are left out of the cycle (R320). -/
theorem step_rst {s : State} (hr : s.pins.rst = true) (hd : Pins.dutiful s.pins s.par.fbBytes) :
    ∃ v, step s = .next (clockTick (blockReset (respond v s.stored))) := by
  obtain ⟨v, hstep⟩ := step_next hd
  exact ⟨v, hstep.trans (if_pos hr)⟩

/-- Settles O9: the cycle is the writer's stores, the host's read and `blockReset`, which keeps the parameters, the buffer
and the log and takes every other value from R321. That the log stays is the model's choice (log 12). -/
theorem blockResetDiscardsTheCycle : Obligations.BlockResetDiscardsTheCycle := by
  intro s hr hd
  obtain ⟨v, hstep⟩ := step_rst hr hd
  exact ⟨_, hstep, by simp⟩

/-- STATUS right after block reset: no cancellation, no error, PHASE 0 (R36, R321). -/
theorem statusWord_resetWith (p : Params) : (State.resetWith p).statusWord = 0 := by
  simp [State.statusWord, State.resetWith, Err.code, Seq.phase]

/-- Settles O8: each register has its value by definition, and `S_IDLE` transmits nothing, so the outputs are idle. -/
theorem resetLeavesSpecValues : Obligations.ResetLeavesSpecValues := by
  intro p
  obtain ⟨hport, haddr, -⟩ := outputsIdleOutsideTheStream (State.resetWith p)
  exact ⟨rfl, rfl, rfl, rfl, rfl, rfl, rfl, rfl, rfl, rfl, rfl, rfl, rfl, rfl, rfl, rfl, hport (.inr rfl),
    haddr (.inl nofun), rfl, statusWord_resetWith p⟩

/-- After block reset the block is between two transactions, where its parameters lie in their ranges (R321). -/
theorem between_resetWith {p : Params} (h : p.wf = true) : Between (State.resetWith p) where
  params := h
  indexFits := Nat.two_pow_pos _
  paletteSize := List.length_replicate
  palette := fun w hw => by rw [List.eq_of_mem_replicate hw]; exact laneWord_zero
  bufferForm := rfl
  bufferSize := rfl
  prescaler := (params_ranges h).2.1
  cursorInTable := Nat.zero_le _
  logForm := nofun
  sent := rfl
  err := rfl

theorem inv_resetWith {p : Params} (h : p.wf = true) : (State.resetWith p).Inv :=
  inv_of_between (between_resetWith h) (.inl rfl) nofun nofun nofun nofun

/-- The reference configuration lies in the ranges of R5, whatever the OPEN parameters are (log 4). -/
theorem wf_reference : Params.reference.wf = true := by
  have htable : Params.reference.initTable.length ≤ 65535 := by decide
  have hms : 1 ≤ Params.reference.cyclesPerMs := Nat.le_add_left 1 _
  have hfb : 1 ≤ Params.reference.fbBytes := by decide
  simp only [Params.wf, htable, hms, hfb, decide_true, Bool.and_self]

/-- Settles O46: `S_IDLE` is a state between two transactions, and the reference configuration lies in its ranges. -/
theorem invariantAtReset : Obligations.InvariantAtReset :=
  ⟨fun _ => inv_resetWith, inv_resetWith wf_reference⟩

/-! ### Runs -/

/-- A run of one step more ends with a step. -/
theorem run_succ_of_run {M : Host.Core} {k : Nat} {s u : M.State} (h : M.run k s = .next u) :
    M.run (k + 1) s = M.step u := by
  induction k generalizing s with
  | zero =>
    cases h
    rw [Host.Core.run]
    cases M.step u <;> rfl
  | succ k ih =>
    obtain ⟨v, hstep, hrun⟩ := run_succ_eq_next h
    rw [run_succ_of_step hstep, ih hrun]

/-- A run uses up the inputs of its cycles (R7). -/
theorem run_inputs {k : Nat} {s t : State} (h : core.run k s = .next t) : t.inputs = s.inputs.drop k := by
  induction k generalizing s with
  | zero => cases h; rfl
  | succ k ih =>
    obtain ⟨u, hstep, hrun⟩ := run_succ_eq_next h
    rw [ih hrun, step_inputs hstep, List.drop_tail]

/-- Where the inputs suffice, the cycle after `k` others is driven by one of them (R41). -/
theorem run_pins_mem {k n : Nat} {s t : State} (h : core.run k s = .next t) (hk : k < n) (hn : n ≤ s.inputs.length) :
    t.pins ∈ s.inputs.take n := by
  have hlt : k < s.inputs.length := hk.trans_le hn
  have hpins : t.pins = s.inputs[k] := by
    rw [State.pins, run_inputs h, List.drop_eq_getElem_cons hlt]
  rw [hpins]
  exact List.mem_take_iff_getElem.mpr ⟨k, by omega, rfl⟩

/-! ### The bytes of a transaction -/

/-- The bytes of the transaction that a state performs, in ascending index order (R63, R152). -/
def txBytes (s : State) : List Byte := (List.range s.txLen).map fun i => (s.txByte i).getD 0

theorem txBytes_length (s : State) : (txBytes s).length = s.txLen := by simp [txBytes]

theorem txBytes_getElem? {s : State} {m : Mode} (h : s.Inv) (hm : txMode s.seq = some m) {i : Nat} (hi : i < s.txLen) :
    (txBytes s)[i]? = s.txByte i := by
  obtain ⟨b, hb⟩ := Option.isSome_iff_exists.mp (txByte_isSome h hm hi)
  simp [txBytes, hi, hb]

theorem txLen_engineSame {s t : State} (h : s.EngineSame t) : t.txLen = s.txLen := by
  simp only [State.txLen, h.seq, h.frmLen, h.par]

/-- The bytes of a transaction depend on the engine alone. -/
theorem txByte_engineSame {s t : State} (h : s.EngineSame t) (i : Nat) : t.txByte i = s.txByte i := by
  simp only [State.txByte, State.tableRead, State.fbRead, txLen_engineSame h, h.seq, h.frmOpc, h.frmBase, h.par, h.fb]

/-! ### An ideal transport -/

/-- The state in a transaction of which `k` bytes have been handed over: it streams while a byte is left, and then awaits
the response, TX_IDX held at the last byte (R151). -/
def handedOver (m : Mode) (k : Nat) (s : State) : State :=
  { s with
    dc := m
    txs := if k < s.txLen then .stream else .wait
    txIdx := min k (s.txLen - 1)
    sent := (txBytes s).take k }

theorem dutiful_of_ideal {p : Pins} (h : Pins.ideal p) (n : Nat) : Pins.dutiful p n := by
  obtain ⟨-, -, -, -, hst, hbus⟩ := h
  exact ⟨hbus, by simp [hst]⟩

/-- Without a store the Pixel Buffer stays as it is. -/
theorem stored_of_nil {s : State} (h : s.pins.stores = []) : s.stored = s := by
  rw [State.stored, h]; rfl

/-- With an ideal transport every step of a transmitting state is a cycle of its transaction, whatever the host does. -/
theorem step_ideal {s : State} {m : Mode} (h : s.Inv) (hm : txMode s.seq = some m) (hp : Pins.ideal s.pins) :
    ∃ t v b, step s = .next t ∧ t.Inv ∧ b.EngineSame t ∧
      sendCycle m s.txLen s.txByte (afterOk s.seq) (afterErr s.seq) (respond v s) = .next b := by
  obtain ⟨t, ht⟩ := dutifulStepsGoOn s h (dutiful_of_ideal hp _)
  obtain ⟨hr, -, -, -, hst, -⟩ := hp
  obtain ⟨v, b, hsend, hsame⟩ := step_transmits hm hr ht
  rw [State.opened, stored_of_nil hst] at hsend
  exact ⟨t, v, b, ht, everyStepKeepsInvariant s t h ht, hsame, hsend⟩

/-- The first cycle of a transaction hands over no byte (R151). -/
theorem step_handedOver_zero {s : State} {m : Mode} (h : s.Inv) (hm : txMode s.seq = some m) (hx : s.txs = .setup)
    (hp : Pins.ideal s.pins) : ∃ t, step s = .next t ∧ t.Inv ∧ (handedOver m 0 s).EngineSame t := by
  obtain ⟨t, v, b, ht, hinv, hsame, hsend⟩ := step_ideal h hm hp
  refine ⟨t, ht, hinv, engineSame_trans ?_ hsame⟩
  cases (sendCycle_setup (s := respond v s) hx).symm.trans hsend
  constructor
  case txs => exact (if_pos (txLen_pos h hm)).symm
  case txIdx => exact (Nat.zero_min _).symm
  all_goals rfl

/-- Each further cycle hands over one byte, until all have been (R151). -/
theorem step_handedOver_succ {s t : State} {m : Mode} {k : Nat} (h : s.Inv) (hm : txMode s.seq = some m)
    (hk : k < s.txLen) (ht : t.Inv) (hsame : (handedOver m k s).EngineSame t) (hp : Pins.ideal t.pins) :
    ∃ u, step t = .next u ∧ u.Inv ∧ (handedOver m (k + 1) s).EngineSame u := by
  obtain ⟨u, v, b, hu, hinv, hsame', hsend⟩ := step_ideal ht (by rw [hsame.seq]; exact hm) hp
  obtain ⟨-, hready, -⟩ := hp
  refine ⟨u, hu, hinv, engineSame_trans ?_ hsame'⟩
  have hlen : t.txLen = s.txLen := (txLen_engineSame hsame).trans rfl
  have hx : t.txs = .stream := hsame.txs.trans (if_pos hk)
  have hidx : t.txIdx = k := hsame.txIdx.trans (by simp only [handedOver]; omega)
  obtain ⟨c, hc⟩ := Option.isSome_iff_exists.mp (txByte_isSome h hm hk)
  have hbyte : t.txByte t.txIdx = some c := (txByte_engineSame hsame _).trans (by rw [hidx]; exact hc)
  have hsent : t.sent ++ [c] = (txBytes s).take (k + 1) := by
    rw [hsame.sent, List.take_add_one, txBytes_getElem? h hm hk, hc]; rfl
  by_cases hlast : t.txIdx + 1 = t.txLen
  · cases (sendCycle_lastByte (s := respond v t) hx hbyte hready hlast).symm.trans hsend
    exact { hsame with
      txs := (if_neg (by omega)).symm
      txIdx := hidx.trans (by simp only [handedOver]; omega)
      sent := hsent }
  · cases (sendCycle_nextByte (s := respond v t) hx hbyte hready hlast).symm.trans hsend
    exact { hsame with
      txs := hx.trans (if_pos (by omega)).symm
      txIdx := (congrArg (· + 1) hidx).trans (by simp only [handedOver]; omega)
      sent := hsent }

/-- After `k + 1` cycles with an ideal transport `k` bytes have been handed over, and nothing else of the engine has
changed. -/
theorem run_handedOver {s : State} {m : Mode} {k : Nat} (h : s.Inv) (hm : txMode s.seq = some m) (hx : s.txs = .setup)
    (hlen : s.txLen + 2 ≤ s.inputs.length) (hideal : ∀ p ∈ s.inputs.take (s.txLen + 2), Pins.ideal p)
    (hk : k ≤ s.txLen) :
    ∃ t, core.run (k + 1) s = .next t ∧ t.Inv ∧ (handedOver m k s).EngineSame t := by
  induction k with
  | zero =>
    obtain ⟨t, ht, hrest⟩ := step_handedOver_zero h hm hx (hideal _ (run_pins_mem (k := 0) rfl (by omega) hlen))
    exact ⟨t, (run_succ_of_run (M := core) rfl).trans ht, hrest⟩
  | succ k ih =>
    obtain ⟨t, hrun, hinv, hsame⟩ := ih (by omega)
    obtain ⟨u, hu, hrest⟩ := step_handedOver_succ h hm hk hinv hsame (hideal _ (run_pins_mem hrun (by omega) hlen))
    exact ⟨u, (run_succ_of_run (M := core) hrun).trans hu, hrest⟩

/-- The successor on ok is another state (R161 to R169, R203, R204). -/
theorem afterOk_leaves {q : Seq} {m : Mode} (hm : txMode q = some m) (s : State) : (afterOk q s).seq ≠ q := by
  cases q <;> try (cases hm; done)
  case tblOpcTx => simp only [afterOk, afterOpcode]; split_ifs <;> nofun
  all_goals nofun

/-- The response of an ideal transport completes the transaction with ok (R150, R151). -/
theorem step_ideal_completes {s : State} {m : Mode} (h : s.Inv) (hm : txMode s.seq = some m) (hx : s.txs = .wait)
    (hp : Pins.ideal s.pins) :
    ∃ t, step s = .next t ∧ t.seq ≠ s.seq ∧ t.log = s.log ++ [{ mode := m, bytes := s.sent, result := .ok }] := by
  obtain ⟨t, v, b, ht, -, hsame, hsend⟩ := step_ideal h hm hp
  obtain ⟨-, -, hv, he, -, -⟩ := hp
  obtain ⟨hdc, -⟩ := h.tx.wait m hm hx
  cases (sendCycle_ok (s := respond v s) hx hv he).symm.trans hsend
  refine ⟨t, ht, hsame.seq ▸ afterOk_leaves hm _, ?_⟩
  rw [hsame.log, (onward_afterOk hm _).log, ← hdc]
  rfl

/-- Settles O25: one cycle sets up, one more for each of the L bytes hands it over, and the last one gets the response. -/
theorem idealTransactionTakesLengthPlusTwo : Obligations.IdealTransactionTakesLengthPlusTwo := by
  intro s m h hm hx hlen hideal
  obtain ⟨t, hrun, hinv, hsame⟩ := run_handedOver h hm hx hlen hideal (Nat.le_refl s.txLen)
  have hwait : t.txs = .wait := hsame.txs.trans (if_neg (Nat.lt_irrefl _))
  have hsent : t.sent = txBytes s := hsame.sent.trans (List.take_of_length_le (txBytes_length s).le)
  obtain ⟨u, hu, hseq, hlog⟩ := step_ideal_completes hinv (by rw [hsame.seq]; exact hm) hwait
    (hideal _ (run_pins_mem hrun (Nat.lt_succ_self _) hlen))
  rw [hsame.log, hsent] at hlog
  rw [hsame.seq] at hseq
  exact ⟨⟨t, hrun, hsame.seq, hwait, hsame.log⟩,
    u, txBytes s, (run_succ_of_run (M := core) hrun).trans hu, hseq, hlog, txBytes_length s,
    fun _ => txBytes_getElem? h hm⟩

end Sys2Proof.Proofs
